-- ==== Sys2Proof/Word.lean ====
section
/-! DEFINITION. The word types of the block: bytes, the 32-bit register word of R8, and 64-bit double words. -/

namespace Sys2Proof

/-- One byte. -/
abbrev Byte := BitVec 8

/-- One register word (R8: granule 4 bytes). -/
abbrev Word := BitVec 32

/-- One 64-bit double word (an aligned 64-bit access of R20, a parameter slot of R364). -/
abbrev DWord := BitVec 64

end Sys2Proof
end

