-- ==== Sys2Proof/Syntax.lean ====
section
/-! DEFINITION. The commands of the block: one constructor of `Instr` per row of spec/opcode_table.json, with the
operands the row's event carries from outside the device (the bus master, the written word, the frame on the wire,
what the host answered to a read), and the plain data types of those operands. -/

namespace Sys2Proof

/-- A bus master (R12, R513): a host function by FID, an internal unit by section and unit, the JTAG port, or a
data-core thread by its mhartid. -/
inductive Master where
  | fn (fid : Nat)
  | unit (sec : Nat) (unit : Nat)
  | jtag
  | core (hart : Nat)
  deriving DecidableEq, Repr

/-- The address space of a register access (R274, R513). -/
inductive Space where
  /-- BAR 0 of PF 0, or the same offsets from an internal master. -/
  | bar0
  /-- BAR 2 (or VF BAR 2) of a function: its function page (R275). -/
  | page (fid : Nat)
  /-- BAR 4 (or VF BAR 4) of a function: its MSI-X table and PBA. -/
  | msix (fid : Nat)
  /-- The configuration space of a function, by the model's own field numbers (assumption 12, DESIGN CHOICE). -/
  | cfg (fid : Nat)
  deriving DecidableEq, Repr

/-- Where a register access goes: the space, and the byte address within it. -/
structure RegAt where
  sp : Space
  addr : Nat
  deriving DecidableEq, Repr

/-- The bytes the parameter read of a Joryen command returned; `none` is a failed read (R365 step 2). -/
abbrev ParamBuf := Option (List Byte)

/-- How a read the device issued to the host ended (R292, R311). -/
inductive ReadFail where
  | unsupported | abort | poison | timeout | translation
  deriving DecidableEq, Repr

/-- What the host answered to a read: its bytes, or how it failed. -/
inductive HostRead where
  | ok (bytes : List Byte)
  | fail (why : ReadFail)
  deriving DecidableEq, Repr

/-- What a lane's reads of a job's source gave: the first, and the second that a long opening job makes (R253). -/
structure SourceRead where
  first : HostRead
  again : HostRead
  deriving DecidableEq, Repr

/-- One margin measurement and re-tune of a lane (R46): eye height (mV) and width (1/256 UI), and the step the
adaptation asks of the CTLE code and of each FFE and DFE coefficient. -/
structure EyeSample where
  height : Byte
  width : Byte
  ctle : Int
  ffe : List Int
  dfe : List Int
  deriving DecidableEq, Repr

/-- What the initial adaptation of a lane reached at link-up (R45 to R49): the receiver's CTLE code and its FFE and DFE
coefficients, and the transmit taps that link training on passive copper agreed with the partner. -/
structure LaneTrained where
  ctle : Byte
  ffe : List Int
  dfe : List Int
  txFfe : Word
  deriving DecidableEq, Repr

/-- A port whose partner answers (R45): the lane rates the partner offers, and what each lane's adaptation reached. -/
structure LinkTrained where
  mac : Nat
  offered : List Nat
  lanes : List LaneTrained
  deriving DecidableEq, Repr

/-- An LLDPDU that management firmware hands to a port (R61): the TLVs ahead of the low-power one. -/
structure LldpSend where
  mac : Nat
  head : List Byte
  deriving DecidableEq, Repr

/-- How the receiver saw a frame's fragments (R155): `n` additional ones, of a frame that reassembles or of one with a
reassembly error or a bad start delimiter. -/
inductive Assembly where
  | whole
  | fragments (n : Nat)
  | assyError (n : Nat)
  | smdError (n : Nat)
  deriving DecidableEq, Repr

/-- A received frame at the MDI: its bytes from the destination address through the FCS (R52), the number of codewords
under it that FEC cannot correct, the verdict of the FCS, the capture of its timestamp point in 1/16 ns (R169), how it
was assembled, and corrected codewords. -/
structure RxFrame where
  bytes : List Byte
  uncorrectable : Nat
  fcsBad : Bool
  capture : Nat
  assembly : Assembly
  corrected : Nat
  deriving DecidableEq, Repr

/-- Why a pipe or lane failed (R122, R260). -/
inductive FailCause where
  | stateError | stall | bist | kat
  deriving DecidableEq, Repr

/-- A frame on a ring input (R187): its bytes without the CRC, whether CRC, length and code were good, and the ingress
and egress captures at the ring timestamp point in 1/16 ns. -/
structure RingRx where
  bytes : List Byte
  good : Bool
  ingress : Nat
  egress : Nat
  deriving DecidableEq, Repr

/-- A wove packet as the port received it (R205): the 32-byte header, the encrypted payload, the tag, and whether it
carried a CE mark. `translated`: the host has the page its payload goes to (R311). -/
structure WovePkt where
  hdr : List Byte
  payload : List Byte
  tag : List Byte
  ce : Bool
  translated : Bool := true
  deriving DecidableEq, Repr

/-- The host's ASPM settings of a link (R277): ASPM L1 in Link Control, and the substates L1.1 and L1.2. -/
structure AspmEnable where
  l1 : Bool := false
  l11 : Bool := false
  l12 : Bool := false
  deriving DecidableEq, Repr

/-- What a descriptor fetch returned (R331, R349): the 32-byte entry, its gather list or job block, and the block's
own gather lists. -/
structure DescRead where
  entry : HostRead
  list : HostRead
  block : HostRead
  deriving DecidableEq, Repr

/-- What the march engine found in one bank (R414): failing bit positions and failing rows beyond them. -/
structure MarchFind where
  bank : Nat
  cols : Nat
  rows : Nat
  deriving DecidableEq, Repr

/-- The outcome of an ECC check (R404, R416). -/
inductive Ecc where
  | clean | corrected | uncorrectable
  deriving DecidableEq, Repr

/-- A location of an HBM stack (R417, HBM_LAST_ERR). -/
structure HbmLoc where
  pch : Nat
  bank : Nat
  row : Nat
  col : Nat
  deriving DecidableEq, Repr

/-- An SPDM request (R463): the requests stage 1 supports, and any other. -/
inductive SpdmReq where
  | getVersion | getCapabilities | negotiateAlgorithms | getDigests | getCertificate | challenge | getMeasurements
  | keyExchange | finish (exportSecret : List Byte) | heartbeat | keyUpdate | endSession | other
  deriving DecidableEq, Repr

/-- The kind of an MCTP request over SMBus (R466). -/
inductive MctpKind where
  | control | spdm | pldmFwUpdate | other
  deriving DecidableEq, Repr

/-- A full time without its fraction (R178): seconds and nanoseconds. -/
structure FullTimeNS where
  sec : Nat
  ns : Nat
  deriving DecidableEq, Repr

/-- The commands: one constructor per row of spec/opcode_table.json, in the table's order. Each docstring names the
table's mnemonic and rule. -/
inductive Instr where
  /-- REGISTER_WRITE (R13). -/
  | registerWrite (m : Master) (sp : Space) (addr : Nat) (data : Word)
  /-- ILLEGAL_SIZE_ACCESS (R20). -/
  | illegalSizeAccess (m : Master) (sp : Space) (addr : Nat) (size : Nat) (isWrite : Bool)
  /-- WIDE_LO_READ (R21). -/
  | wideLoRead (m : Master) (place : RegAt)
  /-- WIDE_HI_READ (R21). -/
  | wideHiRead (m : Master) (place : RegAt)
  /-- WIDE_LO_WRITE (R22). -/
  | wideLoWrite (m : Master) (addr : Nat) (data : Word)
  /-- WIDE_HI_WRITE (R22). -/
  | wideHiWrite (m : Master) (addr : Nat) (data : Word)
  /-- WIDE_64BIT_ACCESS (R22). -/
  | wide64bitAccess (m : Master) (place : RegAt) (data : Option DWord)
  /-- READ_CLEAR (R6). -/
  | readClear (m : Master) (place : RegAt)
  /-- ROOT_FALLBACK (R16). -/
  | rootFallback
  /-- SUPPLY_DROOP (R18). -/
  | supplyDroop (mon : Nat) (slack : Byte)
  /-- STRETCH_END (R443). -/
  | stretchEnd (rail : Nat) (edges : Nat)
  /-- GRADE_REQUEST_WRITE (R31). -/
  | gradeRequestWrite (m : Master) (data : Word)
  /-- GRADE_SET (R31). -/
  | gradeSet (pf : Nat) (buf : ParamBuf)
  /-- DRAIN_ACCEPTANCE_STOP (R34). -/
  | drainAcceptanceStop
  /-- GRADE_TRANSITION_COMPLETE (R34). -/
  | gradeTransitionComplete
  /-- DRAIN_IDLE_REACHED (R36). -/
  | drainIdleReached
  /-- DRAIN_TIMEOUT (R36). -/
  | drainTimeout
  /-- SHAPE_WRITE (R43). -/
  | shapeWrite (m : Master) (lg : Nat) (data : Word)
  /-- PORT_ENABLE (R44). -/
  | portEnable (m : Master) (mac : Nat) (data : Word)
  /-- PORT_DISABLE (R70). -/
  | portDisable (m : Master) (mac : Nat) (data : Word)
  /-- LANE_RETUNE (R46). -/
  | laneRetune (lane : Nat) (eye : EyeSample)
  /-- TX_FFE_WRITE (R49). -/
  | txFfeWrite (m : Master) (lane : Nat) (data : Word)
  /-- FRAME_RECEIVE (R52). -/
  | frameReceive (mac : Nat) (rx : RxFrame)
  /-- PAUSE_RECEIVE (R54). -/
  | pauseReceive (mac : Nat) (quanta : Nat)
  /-- PFC_RECEIVE (R55). -/
  | pfcReceive (mac : Nat) (enable : Byte) (quanta : List Nat)
  /-- PAUSE_TIMER_EXPIRY (R56). -/
  | pauseTimerExpiry (mac : Nat) (cls : Nat)
  /-- XOFF_REFRESH (R58). -/
  | xoffRefresh (mac : Nat) (prio : Nat)
  /-- QI_PARTNER_WRITE (R61). -/
  | qiPartnerWrite (m : Master) (mac : Nat) (data : Word)
  /-- LLDPDU_TRANSMIT (R61). -/
  | lldpduTransmit (lldpdu : LldpSend)
  /-- LPI_ENTRY (R62). -/
  | lpiEntry (mac : Nat)
  /-- LPI_WAKE (R62). -/
  | lpiWake (mac : Nat)
  /-- LINK_DOWN (R66). -/
  | linkDown (mac : Nat)
  /-- LINK_UP (R45). -/
  | linkUp (trained : LinkTrained)
  /-- LINK_RETURN (R68). -/
  | linkReturn (mac : Nat)
  /-- HOLD_EXPIRY (R69). -/
  | holdExpiry (mac : Nat)
  /-- INLET_ADMISSION (R78). -/
  | inletAdmission (mac : Nat)
  /-- THRESHOLD_RECOMPUTE (R79). -/
  | thresholdRecompute
  /-- HBX_CFG_WRITE (R80). -/
  | hbxCfgWrite (m : Master) (addr : Nat) (data : Word)
  /-- EGRESS_CFG_WRITE (R132). -/
  | egressCfgWrite (m : Master) (addr : Nat) (data : Word)
  /-- PASS_START (R128). -/
  | passStart (pipe : Nat) (badWord : Option Nat)
  /-- FRAME_RETIRE (R114). -/
  | frameRetire (pipe : Nat) (translated : Bool)
  /-- SAMPLE_DELIVER (R118). -/
  | sampleDeliver
  /-- PIPE_GRAPH_SEL_WRITE (R89). -/
  | pipeGraphSelWrite (m : Master) (pipe : Nat) (data : Word)
  /-- PIPE_INLET_CLASS_WRITE (R127). -/
  | pipeInletClassWrite (m : Master) (pipe : Nat) (cls : Nat) (data : Word)
  /-- PIPE_JOIN (R121). -/
  | pipeJoin (pf : Nat) (buf : ParamBuf)
  /-- PIPE_SPLIT (R121). -/
  | pipeSplit (pf : Nat) (buf : ParamBuf)
  /-- REORDER_EPOCH (R121). -/
  | reorderEpoch (lanes : Bool) (pair : Nat)
  /-- PIPE_FAILURE (R122). -/
  | pipeFailure (pipe : Nat) (cause : FailCause)
  /-- PIPE_BIST (R125). -/
  | pipeBist (pf : Nat) (buf : ParamBuf)
  /-- PIPE_BIST_DONE (R125). -/
  | pipeBistDone (pipe : Nat) (pass : Bool)
  /-- PIPE_RESTORE (R126). -/
  | pipeRestore (pf : Nat) (buf : ParamBuf)
  /-- EGRESS_ADMISSION (R127). -/
  | egressAdmission (mac : Nat)
  /-- DKL_CLASS_CFG_WRITE (R133). -/
  | dklClassCfgWrite (m : Master) (mac : Nat) (cls : Nat) (data : Word)
  /-- DKL_PORT_CFG_WRITE (R141). -/
  | dklPortCfgWrite (m : Master) (mac : Nat) (data : Word)
  /-- DKL_LIST_WRITE (R135). -/
  | dklListWrite (pf : Nat) (buf : ParamBuf)
  /-- DKL_LIST_COMMIT (R138). -/
  | dklListCommit (pf : Nat) (buf : ParamBuf)
  /-- DKL_LIST_READ (R516). -/
  | dklListRead (pf : Nat) (buf : ParamBuf)
  /-- LIST_SWAP (R139). -/
  | listSwap (mac : Nat)
  /-- CYCLE_START (R137). -/
  | cycleStart (mac : Nat)
  /-- GATE_ENTRY_START (R137). -/
  | gateEntryStart (mac : Nat) (entry : Nat)
  /-- HOLD_START (R146). -/
  | holdStart (mac : Nat)
  /-- FRAME_TX_START (R143). -/
  | frameTxStart (mac : Nat)
  /-- FRAGMENT_RESUME (R145). -/
  | fragmentResume (mac : Nat)
  /-- FRAME_TX_END (R337). -/
  | frameTxEnd (mac : Nat) (cap : Nat)
  /-- TSQ_DEFERRED_WRITE (R183). -/
  | tsqDeferredWrite (cqid : Nat)
  /-- WINDOW_CLOSE (R151). -/
  | windowClose (mac : Nat) (cls : Nat)
  /-- VERIFY_TIMEOUT (R154). -/
  | verifyTimeout (mac : Nat)
  /-- VERIFY_MPACKET_RECEIVE (R154). -/
  | verifyMpacketReceive (mac : Nat)
  /-- RESPOND_MPACKET_RECEIVE (R154). -/
  | respondMpacketReceive (mac : Nat)
  /-- FRER_RESET_TIMEOUT (R159). -/
  | frerResetTimeout (handle : Nat)
  /-- FRER_STREAM_SET (R157). -/
  | frerStreamSet (pf : Nat) (buf : ParamBuf)
  /-- FRER_STREAM_CLEAR (R157). -/
  | frerStreamClear (pf : Nat) (buf : ParamBuf)
  /-- FRER_STATS (R160). -/
  | frerStats (pf : Nat) (buf : ParamBuf)
  /-- TRIG_SET (R161). -/
  | trigSet (pf : Nat) (buf : ParamBuf)
  /-- TRIG_CLEAR (R165). -/
  | trigClear (pf : Nat) (buf : ParamBuf)
  /-- TRIGGER_TIME_FIRE (R162). -/
  | triggerTimeFire (slot : Nat)
  /-- TRIGGER_EDGE_FIRE (R163). -/
  | triggerEdgeFire (slot : Nat)
  /-- WAKE_AHEAD (R166). -/
  | wakeAhead (mac : Nat)
  /-- WINDOW_PUBLISH (R167). -/
  | windowPublish (mac : Nat) (cls : Nat) (k : Nat)
  /-- PHC_RATE (R172). -/
  | phcRate (pf : Nat) (buf : ParamBuf)
  /-- PHC_RATE_REGISTER_COMMIT (R172). -/
  | phcRateRegisterCommit (m : Master) (phc : Nat) (data : Word)
  /-- PHC_STEP (R175). -/
  | phcStep (pf : Nat) (buf : ParamBuf)
  /-- PHC_STEP_GO (R175). -/
  | phcStepGo (m : Master) (phc : Nat) (data : Word)
  /-- PHC_LOCK (R177). -/
  | phcLock (pf : Nat) (buf : ParamBuf)
  /-- PHC_LOCKED_WRITE (R177). -/
  | phcLockedWrite (m : Master) (phc : Nat) (data : Word)
  /-- PHC_SNAPSHOT (R173). -/
  | phcSnapshot (m : Master) (phc : Nat) (data : Word)
  /-- PHC_READ (R514). -/
  | phcRead (pf : Nat) (buf : ParamBuf)
  /-- PPS_IN_EDGE (R184). -/
  | ppsInEdge (i : Nat) (falling : Bool) (cap : Nat)
  /-- PPS_IN_LOSS (R184). -/
  | ppsInLoss (i : Nat)
  /-- PPS_OUT_PULSE_START (R185). -/
  | ppsOutPulseStart (i : Nat)
  /-- PPS_OUT_PULSE_END (R185). -/
  | ppsOutPulseEnd (i : Nat)
  /-- RING_FRAME_RECEIVE (R189). -/
  | ringFrameReceive (port : Nat) (rx : RingRx)
  /-- DELAY_MEASURE (R191). -/
  | delayMeasure (port : Nat) (t1 : Nat)
  /-- SYNC_SEND (R192). -/
  | syncSend (cap : Nat)
  /-- BROADCAST_RETURN_TIMEOUT (R194). -/
  | broadcastReturnTimeout (port : Nat)
  /-- RING_INSERT_OPEN (R197). -/
  | ringInsertOpen
  /-- RING_INSERT_SEND (R197). -/
  | ringInsertSend
  /-- RING_INSERT_TIMEOUT (R197). -/
  | ringInsertTimeout (port : Nat)
  /-- RING_INSERT_RETRY (R197). -/
  | ringInsertRetry
  /-- RING_INPUT_LOS (R198). -/
  | ringInputLos (port : Nat)
  /-- CRG_CFG_WRITE (R190). -/
  | crgCfgWrite (m : Master) (data : Word)
  /-- CRG_MSG_SEND (R188). -/
  | crgMsgSend (pf : Nat) (buf : ParamBuf)
  /-- WOV_CONN_CREATE (R200). -/
  | wovConnCreate (pf : Nat) (buf : ParamBuf)
  /-- WOV_CONN_CLOSE (R201). -/
  | wovConnClose (pf : Nat) (buf : ParamBuf)
  /-- CONN_DRAIN_END (R201). -/
  | connDrainEnd (conn : Nat)
  /-- WOV_CONN_REKEY (R225). -/
  | wovConnRekey (pf : Nat) (buf : ParamBuf)
  /-- WOV_CONN_QUERY (R225). -/
  | wovConnQuery (pf : Nat) (buf : ParamBuf)
  /-- WOV_WIN_OPEN (R208). -/
  | wovWinOpen (pf : Nat) (buf : ParamBuf)
  /-- WOV_WIN_REVOKE (R210). -/
  | wovWinRevoke (pf : Nat) (buf : ParamBuf)
  /-- WOVE_CONTEXT_LOADED (R204). -/
  | woveContextLoaded (conn : Nat) (good : Bool)
  /-- WOVE_PACKET_SEND (R212). -/
  | wovePacketSend (conn : Nat) (payload : HostRead)
  /-- WOVE_PACKET_RECEIVE (R213). -/
  | wovePacketReceive (mac : Nat) (pkt : WovePkt)
  /-- ACK_COAL_TIMEOUT (R216). -/
  | ackCoalTimeout (conn : Nat)
  /-- PATH_SUSPECT_END (R212). -/
  | pathSuspectEnd (conn : Nat) (path : Nat)
  /-- RETRANSMIT_TIMEOUT (R219). -/
  | retransmitTimeout (conn : Nat)
  /-- RNR_RETRY (R221). -/
  | rnrRetry (conn : Nat) (psn : Nat)
  /-- RATE_UPDATE (R222). -/
  | rateUpdate (conn : Nat)
  /-- CPH_SA_WRITE (R243). -/
  | cphSaWrite (pf : Nat) (buf : ParamBuf)
  /-- CPH_SA_CLEAR (R243). -/
  | cphSaClear (pf : Nat) (buf : ParamBuf)
  /-- CPH_SA_QUERY (R242). -/
  | cphSaQuery (pf : Nat) (buf : ParamBuf)
  /-- SA_FETCH_DONE (R241). -/
  | saFetchDone (sa : Nat) (tagGood : Bool) (ecc : Bool)
  /-- SA_WRITEBACK (R240). -/
  | saWriteback (sa : Nat)
  /-- CPH_PORT_CFG_WRITE (R245). -/
  | cphPortCfgWrite (m : Master) (mac : Nat) (data : Word)
  /-- INLINE_CIPHER_FRAME (R247). -/
  | inlineCipherFrame (lane : Nat)
  /-- LOOKASIDE_JOB_ASSIGN (R238). -/
  | lookasideJobAssign (job : Nat)
  /-- LOOKASIDE_JOB_DONE (R252). -/
  | lookasideJobDone (job : Nat) (src : SourceRead) (aad : HostRead)
  /-- TRANSFORM_JOB_DONE (R263). -/
  | transformJobDone (job : Nat) (src : HostRead) (dict : HostRead)
  /-- CPH_LANE_JOIN (R259). -/
  | cphLaneJoin (pf : Nat) (buf : ParamBuf)
  /-- CPH_LANE_SPLIT (R259). -/
  | cphLaneSplit (pf : Nat) (buf : ParamBuf)
  /-- KAT_RUN (R260). -/
  | katRun (lane : Nat) (pass : Bool)
  /-- LANE_FAILURE (R260). -/
  | laneFailure (lane : Nat) (cause : FailCause)
  /-- CPH_LANE_BIST (R262). -/
  | cphLaneBist (pf : Nat) (buf : ParamBuf)
  /-- LANE_BIST_DONE (R262). -/
  | laneBistDone (lane : Nat) (pass : Bool)
  /-- CPH_LANE_RESTORE (R262). -/
  | cphLaneRestore (pf : Nat) (buf : ParamBuf)
  /-- CPH_PAGE_SA_SEL_WRITE (R267). -/
  | cphPageSaSelWrite (fid : Nat) (page : Nat) (data : Word)
  /-- HOST_LINK_UP (R268). -/
  | hostLinkUp (link : Nat) (speed : Nat) (width : Nat) (flit : Bool)
  /-- ASPM_L1_REQUEST (R277). -/
  | aspmL1Request (link : Nat) (idle : Nat)
  /-- L0P_NARROW (R278). -/
  | l0pNarrow (link : Nat)
  /-- L0P_WIDEN (R278). -/
  | l0pWiden (link : Nat)
  /-- LINK_WAKE_LEAD (R280). -/
  | linkWakeLead (link : Nat)
  /-- D3HOT_ENTRY (R281). -/
  | d3hotEntry (fid : Nat)
  /-- D0_RETURN (R281). -/
  | d0Return (fid : Nat)
  /-- PERST_ASSERT (R282). -/
  | perstAssert
  /-- PERST_DEASSERT (R282). -/
  | perstDeassert
  /-- HOT_RESET (R282). -/
  | hotReset (link : Nat)
  /-- CONFIG_READY (R295). -/
  | configReady (link : Nat)
  /-- FLR_INITIATE (R288). -/
  | flrInitiate (fid : Nat)
  /-- FLR_COMPLETE (R288). -/
  | flrComplete (fid : Nat)
  /-- BME_CLEAR (R286). -/
  | bmeClear (fid : Nat)
  /-- BME_SET (R287). -/
  | bmeSet (fid : Nat)
  /-- VF_REMOVE (R515). -/
  | vfRemove (fid : Nat)
  /-- HOST_COMPLETION_RECEIVE (R291). -/
  | hostCompletionReceive (link : Nat) (fid : Nat) (tag : Nat) (cpl : HostRead)
  /-- QUARANTINE_EXPIRY (R291). -/
  | quarantineExpiry (fid : Nat) (tag : Nat)
  /-- COMPLETION_TIMEOUT (R292). -/
  | completionTimeout (fid : Nat) (tag : Nat)
  /-- HOST_LOST (R293). -/
  | hostLost (link : Nat)
  /-- HOST_RETURN (R295). -/
  | hostReturn (link : Nat)
  /-- ATS_INVALIDATION (R309). -/
  | atsInvalidation (fid : Nat) (pasid : Option Nat) (iova : Nat) (len : Nat)
  /-- ATS_INVALIDATION_COMPLETE (R309). -/
  | atsInvalidationComplete (fid : Nat)
  /-- PAGE_RESPONSE_RECEIVE (R310). -/
  | pageResponseReceive (fid : Nat) (req : Nat) (ok : Bool)
  /-- PRI_TIMEOUT (R310). -/
  | priTimeout (fid : Nat) (req : Nat)
  /-- VF_MBX_SEND (R303). -/
  | vfMbxSend (fid : Nat)
  /-- VF_MBX_ACK (R303). -/
  | vfMbxAck (fid : Nat)
  /-- PF_MBX_ACK_REQ (R303). -/
  | pfMbxAckReq (pf : Nat)
  /-- PF_MBX_SEND_REPLY (R303). -/
  | pfMbxSendReply (pf : Nat)
  /-- FN_QUOTA_SET (R317). -/
  | fnQuotaSet (pf : Nat) (buf : ParamBuf)
  /-- FN_QUOTA_QUERY (R516). -/
  | fnQuotaQuery (pf : Nat) (buf : ParamBuf)
  /-- FN_RES_ASSIGN (R320). -/
  | fnResAssign (pf : Nat) (buf : ParamBuf)
  /-- FN_RES_RELEASE (R320). -/
  | fnResRelease (pf : Nat) (buf : ParamBuf)
  /-- FN_DIRTY_START (R312). -/
  | fnDirtyStart (pf : Nat) (buf : ParamBuf)
  /-- FN_DIRTY_SWAP (R315). -/
  | fnDirtySwap (pf : Nat) (buf : ParamBuf)
  /-- FN_DIRTY_STOP (R316). -/
  | fnDirtyStop (pf : Nat) (buf : ParamBuf)
  /-- DIRTY_WORD_WRITE (R314). -/
  | dirtyWordWrite (fid : Nat) (word : Nat)
  /-- DIRTY_WRITE_FAIL (R316). -/
  | dirtyWriteFail (fid : Nat)
  /-- SEALED_REPLY_RELEASE (R322). -/
  | sealedReplyRelease (pf : Nat)
  /-- QUEUE_DOORBELL (R330). -/
  | queueDoorbell (fid : Nat) (idx : Nat) (data : Word)
  /-- DESCRIPTOR_FETCH (R332). -/
  | descriptorFetch (qid : Nat) (rd : DescRead)
  /-- HELD_COMPLETION_WRITE (R346). -/
  | heldCompletionWrite (cqid : Nat)
  /-- SHADOW_WRITE (R345). -/
  | shadowWrite (cqid : Nat) (translated : Bool)
  /-- CQ_DOORBELL (R347). -/
  | cqDoorbell (fid : Nat) (idx : Nat) (data : Word)
  /-- MODERATION_TIMEOUT (R348). -/
  | moderationTimeout (cqid : Nat)
  /-- FW_MSG_EXECUTE (R353). -/
  | fwMsgExecute (buf : List Byte)
  /-- Q_CREATE (R333). -/
  | qCreate (pf : Nat) (buf : ParamBuf)
  /-- Q_STOP (R355). -/
  | qStop (pf : Nat) (buf : ParamBuf)
  /-- QUEUE_STOP_DONE (R355). -/
  | queueStopDone (qid : Nat)
  /-- Q_RESUME (R356). -/
  | qResume (pf : Nat) (buf : ParamBuf)
  /-- Q_DESTROY (R357). -/
  | qDestroy (pf : Nat) (buf : ParamBuf)
  /-- CQ_CREATE (R334). -/
  | cqCreate (pf : Nat) (buf : ParamBuf)
  /-- CQ_MODERATE (R334). -/
  | cqModerate (pf : Nat) (buf : ParamBuf)
  /-- CQ_DESTROY (R357). -/
  | cqDestroy (pf : Nat) (buf : ParamBuf)
  /-- CMD_SUBMIT (R360). -/
  | cmdSubmit (pf : Nat) (data : Word)
  /-- CMD_ABORT (R368). -/
  | cmdAbort (pf : Nat) (data : Word)
  /-- ABORT_DONE (R368). -/
  | abortDone (pf : Nat)
  /-- COMMAND_REPLY_RELEASE (R363). -/
  | commandReplyRelease (pf : Nat)
  /-- NOP (R373). -/
  | nop (pf : Nat) (buf : ParamBuf)
  /-- DEV_INFO (R516). -/
  | devInfo (pf : Nat) (buf : ParamBuf)
  /-- DEV_RESET (R447). -/
  | devReset (pf : Nat) (buf : ParamBuf)
  /-- SMB_ENABLE (R487). -/
  | smbEnable (pf : Nat) (buf : ParamBuf)
  /-- GRAPH_WRITE (R88). -/
  | graphWrite (pf : Nat) (buf : ParamBuf)
  /-- GRAPH_STAGE_WRITE (R99). -/
  | graphStageWrite (pf : Nat) (buf : ParamBuf)
  /-- GRAPH_COMMIT (R88). -/
  | graphCommit (pf : Nat) (buf : ParamBuf)
  /-- PROG_WRITE (R109). -/
  | progWrite (pf : Nat) (buf : ParamBuf)
  /-- TEMPLATE_WRITE (R113). -/
  | templateWrite (pf : Nat) (buf : ParamBuf)
  /-- EM_INSERT (R103). -/
  | emInsert (pf : Nat) (buf : ParamBuf)
  /-- EM_DELETE (R108). -/
  | emDelete (pf : Nat) (buf : ParamBuf)
  /-- TCAM_WRITE (R105). -/
  | tcamWrite (pf : Nat) (buf : ParamBuf)
  /-- TCAM_CLEAR (R108). -/
  | tcamClear (pf : Nat) (buf : ParamBuf)
  /-- LPM_ADD (R106). -/
  | lpmAdd (pf : Nat) (buf : ParamBuf)
  /-- LPM_DELETE (R106). -/
  | lpmDelete (pf : Nat) (buf : ParamBuf)
  /-- METER_SET (R115). -/
  | meterSet (pf : Nat) (buf : ParamBuf)
  /-- MIRROR_SET (R116). -/
  | mirrorSet (pf : Nat) (buf : ParamBuf)
  /-- RSS_KEY_SET (R87). -/
  | rssKeySet (pf : Nat) (buf : ParamBuf)
  /-- RSS_INDIR_SET (R364). -/
  | rssIndirSet (pf : Nat) (buf : ParamBuf)
  /-- COUNTER_READ (R373). -/
  | counterRead (pf : Nat) (buf : ParamBuf)
  /-- CORE_IMAGE_LOAD (R393). -/
  | coreImageLoad (pf : Nat) (buf : ParamBuf)
  /-- QUIRE_START (R393). -/
  | quireStart (pf : Nat) (buf : ParamBuf) (bistPass : Byte)
  /-- QUIRE_STOP (R395). -/
  | quireStop (pf : Nat) (buf : ParamBuf)
  /-- QUIRE_QUERY (R373). -/
  | quireQuery (pf : Nat) (buf : ParamBuf)
  /-- MARCH_RUN (R412). -/
  | marchRun (pf : Nat) (buf : ParamBuf)
  /-- MARCH_RUN_DONE (R411). -/
  | marchRunDone (found : List MarchFind)
  /-- MARCH_STATUS (R373). -/
  | marchStatus (pf : Nat) (buf : ParamBuf)
  /-- HBM_CFG (R417). -/
  | hbmCfg (pf : Nat) (buf : ParamBuf)
  /-- HBM_ROW_REPAIR (R418). -/
  | hbmRowRepair (pf : Nat) (buf : ParamBuf)
  /-- HBM_QUERY (R418). -/
  | hbmQuery (pf : Nat) (buf : ParamBuf)
  /-- DRY_CAP_SET (R427). -/
  | dryCapSet (pf : Nat) (buf : ParamBuf)
  /-- DRY_DOMAIN_SET (R423). -/
  | dryDomainSet (pf : Nat) (buf : ParamBuf)
  /-- DRY_QUERY (R430). -/
  | dryQuery (pf : Nat) (buf : ParamBuf)
  /-- PMU_CFG (R490). -/
  | pmuCfg (pf : Nat) (buf : ParamBuf)
  /-- TRC_CFG (R497). -/
  | trcCfg (pf : Nat) (buf : ParamBuf)
  /-- ERRLOG_READ (R502). -/
  | errlogRead (pf : Nat) (buf : ParamBuf)
  /-- FREEZE_ARM (R507). -/
  | freezeArm (pf : Nat) (buf : ParamBuf)
  /-- FREEZE_DISARM (R507). -/
  | freezeDisarm (pf : Nat) (buf : ParamBuf)
  /-- DBG_UNLOCK (R505). -/
  | dbgUnlock (pf : Nat) (buf : ParamBuf)
  /-- FW_WRITE (R458). -/
  | fwWrite (pf : Nat) (buf : ParamBuf)
  /-- FW_ACTIVATE (R468). -/
  | fwActivate (pf : Nat) (buf : ParamBuf)
  /-- ATTEST_GET (R463). -/
  | attestGet (pf : Nat) (buf : ParamBuf)
  /-- MINVER_SET (R459). -/
  | minverSet (pf : Nat) (buf : ParamBuf)
  /-- FW_QUERY (R373). -/
  | fwQuery (pf : Nat) (buf : ParamBuf)
  /-- CH_RECV (R386). -/
  | chRecv (hart : Nat) (rd : Nat) (rs1 : Nat)
  /-- CH_TRYRECV (R385). -/
  | chTryrecv (hart : Nat) (rd : Nat) (rs1 : Nat)
  /-- CH_SEND (R387). -/
  | chSend (hart : Nat) (rs1 : Nat) (rs2 : Nat)
  /-- CH_SENDL (R388). -/
  | chSendl (hart : Nat) (rs1 : Nat) (rs2 : Nat)
  /-- CH_ACK (R388). -/
  | chAck (hart : Nat)
  /-- CH_WAIT (R385). -/
  | chWait (hart : Nat) (rd : Nat) (rs1 : Nat)
  /-- CH_REPLAY (R398). -/
  | chReplay (hart : Nat) (rs1 : Nat) (rs2 : Nat)
  /-- CHANNEL_ITEM_DELIVER (R382). -/
  | channelItemDeliver (core : Nat) (ep : Nat)
  /-- THREAD_WAKE (R391). -/
  | threadWake (hart : Nat)
  /-- TIMER_CMP_MATCH (R392). -/
  | timerCmpMatch (core : Nat)
  /-- THREAD_CTX_ACCESS (R394). -/
  | threadCtxAccess (hart : Nat) (rd : Nat) (write : Option DWord)
  /-- THREAD_GO (R394). -/
  | threadGo (hart : Nat) (mask : DWord)
  /-- THREAD_FAULT (R396). -/
  | threadFault (hart : Nat) (cause : Nat) (tval : DWord)
  /-- CORE_FAILURE (R399). -/
  | coreFailure (core : Nat) (cause : Nat)
  /-- LOCKSTEP_MISMATCH (R401). -/
  | lockstepMismatch (pc0 : DWord) (pc1 : DWord)
  /-- FIRMWARE_RESTART_DONE (R401). -/
  | firmwareRestartDone
  /-- SPM_BANK_OWNER_WRITE (R407). -/
  | spmBankOwnerWrite (m : Master) (bank : Nat) (data : Word)
  /-- HANDOVER_COMPLETE (R407). -/
  | handoverComplete (bank : Nat)
  /-- SPM_BANK_COUSER_WRITE (R409). -/
  | spmBankCouserWrite (m : Master) (bank : Nat) (data : Word)
  /-- SPM_SCRUB (R410). -/
  | spmScrub (bank : Nat) (word : Nat) (ecc : Ecc)
  /-- HBM_PATROL_SCRUB (R417). -/
  | hbmPatrolScrub (stack : Nat) (loc : HbmLoc) (ecc : Ecc) (passEnd : Bool)
  /-- HBM_REFRESH (R419). -/
  | hbmRefresh (stack : Nat) (temp : Byte)
  /-- DOMAIN_CLOSE_START (R424). -/
  | domainCloseStart (dom : Nat)
  /-- DOMAIN_DRAIN_LIMIT (R425). -/
  | domainDrainLimit (dom : Nat)
  /-- DOMAIN_CLOSED (R425). -/
  | domainClosed (dom : Nat)
  /-- DOMAIN_OPEN_DONE (R421). -/
  | domainOpenDone (dom : Nat) (testPass : Bool)
  /-- ACCOUNTING_STEP (R428). -/
  | accountingStep (spent : Nat) (winSpent : List (Nat × Nat × Nat))
  /-- ESTIMATE_CORRECTION (R428). -/
  | estimateCorrection (reported : List Nat) (deciWatt : Nat) (floor : Nat)
  /-- CAP_CHECK (R431). -/
  | capCheck
  /-- CAP_STEP_UNDO (R431). -/
  | capStepUndo
  /-- CORE_CLK_RAISE (R432). -/
  | coreClkRaise (quire : Nat) (reported : Nat)
  /-- RAMP_START (R437). -/
  | rampStart (mac : Nat) (late : Bool)
  /-- RAMP_END (R437). -/
  | rampEnd (mac : Nat)
  /-- THERMAL_FORECAST (R438). -/
  | thermalForecast (sensor : Nat) (temp : Byte) (regionPower : Nat)
  /-- THERMAL_CAP_STEP (R439). -/
  | thermalCapStep
  /-- THERMAL_EMERGENCY (R440). -/
  | thermalEmergency (sensor : Nat) (temp : Byte)
  /-- THERMAL_EMERGENCY_END (R440). -/
  | thermalEmergencyEnd
  /-- THERMAL_TRIP (R440). -/
  | thermalTrip (sensor : Nat)
  /-- AVS_LOOP (R442). -/
  | avsLoop (rail : Nat) (slacks : List (Nat × Byte)) (ok : Bool)
  /-- MARGIN_EXHAUSTED (R444). -/
  | marginExhausted (rail : Nat)
  /-- AVS_FAULT (R444). -/
  | avsFault (rail : Nat)
  /-- POR_ASSERT (R446). -/
  | porAssert
  /-- POR_RELEASE (R450). -/
  | porRelease
  /-- BOOT_DEV_RESET_WRITE (R447). -/
  | bootDevResetWrite (m : Master) (data : Word)
  /-- DEVICE_RESET_HOLD_END (R447). -/
  | deviceResetHoldEnd
  /-- BOOT_SOURCE_ATTEMPT (R456). -/
  | bootSourceAttempt (bundle : Option (List Byte))
  /-- PUSH_WAIT_TIMEOUT (R452). -/
  | pushWaitTimeout
  /-- BOOT_REC_GO (R452). -/
  | bootRecGo (m : Master) (data : Word)
  /-- PLDM_REQUEST_UPDATE (R452). -/
  | pldmRequestUpdate (comp : Nat)
  /-- KEY_SLOT_LOCK (R461). -/
  | keySlotLock
  /-- KS_SIGN (R462). -/
  | ksSign (slot : Nat) (digest : List Byte)
  /-- KS_DERIVE (R462). -/
  | ksDerive (src : Nat) (dst : Nat) (info : List Byte)
  /-- KS_WRAP (R462). -/
  | ksWrap (slot : Nat) (key : List Byte)
  /-- KS_UNWRAP (R462). -/
  | ksUnwrap (slot : Nat) (dst : Nat) (wrapped : List Byte)
  /-- KS_LOAD (R462). -/
  | ksLoad (slot : Nat) (consumer : Nat) (key : List Byte)
  /-- SPDM_REQUEST (R463). -/
  | spdmRequest (viaDoe : Bool) (req : SpdmReq)
  /-- MCTP_REQUEST (R466). -/
  | mctpRequest (kind : MctpKind) (body : List Byte)
  /-- BOOT_CONFIG_APPLY (R467). -/
  | bootConfigApply (present : Bool)
  /-- SMBUS_TIMEOUT (R487). -/
  | smbusTimeout
  /-- MODULE_BUS_TIMEOUT (R487). -/
  | moduleBusTimeout (mac : Nat)
  /-- MODULE_INT_STORM (R487). -/
  | moduleIntStorm (mac : Nat)
  /-- VDD_IO_LOSS (R482). -/
  | vddIoLoss
  /-- PMU_OVERFLOW (R493). -/
  | pmuOverflow (unitBase : Nat) (ctr : Nat)
  /-- PMU_SNAPSHOT (R494). -/
  | pmuSnapshot (m : Master) (data : Word)
  /-- PMU_VIEW_CLEAR (R494). -/
  | pmuViewClear (m : Master) (data : Word)
  /-- TAG_SELECT (R495). -/
  | tagSelect (src : Nat)
  /-- TRC_CTL_WRITE (R497). -/
  | trcCtlWrite (m : Master) (src : Nat) (data : Word)
  /-- TRACE_RECORD_WRITE (R498). -/
  | traceRecordWrite (src : Nat)
  /-- CORE_IDLE_ENTRY (R501). -/
  | coreIdleEntry (core : Nat)
  /-- ERRLOG_DEQUEUE (R502). -/
  | errlogDequeue
  /-- DBG_RELOCK (R506). -/
  | dbgRelock (m : Master) (data : Word)
  /-- FREEZE_TRIGGER (R508). -/
  | freezeTrigger (bits : Nat)
  /-- IDCODE (R511). -/
  | idcode
  /-- SAMPLE_PRELOAD (R511). -/
  | samplePreload (shiftIn : List Bool)
  /-- EXTEST (R511). -/
  | extest
  /-- DBG_ACCESS (R511). -/
  | dbgAccess (dr : BitVec 65)
  /-- FRZ_REGION (R511). -/
  | frzRegion (dr : BitVec 97)
  /-- FRZ_CAPTURE (R512). -/
  | frzCapture (dr : BitVec 1)
  /-- BYPASS (R511). -/
  | bypass (bits : List Bool)
  /-- RING_BLOCK_LOCK_LOSS (R194). -/
  | ringBlockLockLoss (port : Nat)
  /-- EPOCH_SEND (R193). -/
  | epochSend (num : Nat) (eff : FullTimeNS) (deadline : Nat)
  /-- VDD_AON_POWER_UP (R449). -/
  | vddAonPowerUp
  /-- FW_READY_SET (R465). -/
  | fwReadySet
  /-- SQUELCH_LIFT (R466). -/
  | squelchLift (bistPass : Nat)
  deriving DecidableEq, Repr

end Sys2Proof
end

