-- ==== Sys2Proof/Decode.lean ====
section
/-! DEFINITION. Commands from table words: the spec's table gives no row any bits, since the device has no instruction
words of its own; its commands come as register accesses, command-ring entries, frames and pins. -/

namespace Sys2Proof

/-- The command a table word spells: none, since no row of the table has bits. -/
def decodeTableWord (_nbits _w : Nat) : Option Instr := none

end Sys2Proof
end

