-- ==== Sys2Proof/Config.lean ====
section
/-! DEFINITION. What the spec leaves open, as constants without a body: the free values, and the functions of the
standards whose result it leaves to the device or that rest on keys outside the model (signatures, the choice among
compressed streams). Nothing in Lean can evaluate
them, so a theorem holds whatever they are. -/

namespace Sys2Proof.Config

/-- A value the spec leaves open, by the index of its use (assumption 2, DESIGN CHOICE). -/
opaque freeValue : Nat → DWord

/-- Verification of an ECDSA P-384 signature (assumption 3, DESIGN CHOICE). -/
opaque ecdsaVerify (key digest sig : List Byte) : Bool

/-- An ECDSA P-384 signature with the private key (assumption 3, DESIGN CHOICE). -/
opaque ecdsaSign (key digest : List Byte) : List Byte

/-- Verification of an ML-DSA signature (assumption 3, DESIGN CHOICE). -/
opaque mldsaVerify (key digest sig : List Byte) : Bool

/-- The stream the device would make of an input, by format and level, dictionary and input (R266; assumption 107, DESIGN
CHOICE). -/
opaque compress (fmt : Nat) (dict src : List Byte) : List Byte

/-- Row repair resources of a bank of an HBM stack as manufactured: stack, pseudo-channel and bank (assumption 5, DESIGN CHOICE). -/
opaque hbmSpares (stack pch bank : Nat) : Nat

/-- Length in words, and the words, of a unit's scan state in a freeze capture (R512), by unit and what was latched
(assumption 15, DESIGN CHOICE). -/
opaque scanLen (unit : Nat) : Nat
opaque scanWord (unit at' index : Nat) : DWord

/-- The unit, and the words, of an SRAM array other than the scratchpad in a freeze capture (R403, R512), by array and
what was latched; the exclusions of R506 read 0 there (assumption 15, DESIGN CHOICE). -/
opaque sramUnit (array : Nat) : Nat
opaque sramWord (array at' index : Nat) : DWord

/-- The dryer's thermal model (R438), whose fused resistance and time constant the spec does not give: sensor, its
temperature, its region's power and the committed work give the forecast 1 ms ahead (assumption 17, DESIGN CHOICE). -/
opaque thermalForecast (sensor : Nat) (temp : Byte) (power committed : Nat) : Byte

/-- The length of a header record whose advance was never known, because the parse ended first (R93, R95), by node and
offset (assumption 98, DESIGN CHOICE). -/
opaque openAdvance (node off : Nat) : BitVec 16

/-- Metadata of a number the spec gives no meaning (R100; assumption 98, DESIGN CHOICE). -/
opaque openMeta (number : Nat) : Byte

/-- The hash of a frame for which R83 names no tuple, by function and frame (assumption 98, DESIGN CHOICE). -/
opaque openHash (fid : Nat) (frame : List Byte) : Word

end Sys2Proof.Config
end

