-- ==== Sys2Proof/Machine/State.lean ====
section
/-! DEFINITION. The state of the block as plain data: every register, table, queue, counter, mode and pin the spec
gives the device, grouped by the chapter that owns it, the queue of waiting commands, the reasons a step can stop,
and the state right after reset. -/

namespace Sys2Proof.Machine

/-- The fault reasons of a step. -/
inductive Fault where
  /-- Raised by a meaning whose operand names a unit, port, lane, function or channel the device does not have (a
  ninth MAC, a fifth transform engine). No such event exists, so stopping is safe. -/
  | noSuchUnit
  deriving DecidableEq, Repr

/-- The refusal reasons of a step. -/
inductive Refusal where
  /-- Raised by an arm of `exec` whose command has no meaning yet. Safe: nothing is claimed of it. -/
  | notModelled (mnemonic : String)
  deriving DecidableEq, Repr

/-- A sparse table: number and value, numbers strictly rising. -/
abbrev Tab (α : Type) := List (Nat × α)

/-- The two variants (R2, GLB_ID.VARIANT). -/
inductive Variant where
  | ax | bx
  deriving DecidableEq, Repr

/-- The operating grades (R27). -/
inductive Grade where
  | provision | throughput | deterministic | sealed | capped | drain | standby | frozen
  deriving DecidableEq, Repr

/-- What holds the device (R446, R447, R440): `porLow` while POR_N is low, `hold` during the hold of a device reset,
`tripped` after a thermal trip until POR_N, `run` otherwise. -/
inductive Power where
  | porLow | hold | tripped | run
  deriving DecidableEq, Repr

/-- What the device sends outside: one constructor per kind of output, in the order the device issues them. -/
inductive Out where
  /-- Data returned to a register read of a master. -/
  | busData (m : Master) (addr : Nat) (data : List Byte)
  /-- A request of a function completed with Unsupported Request (R276). -/
  | unsupported (fid : Nat)
  /-- A memory write to a host address through the DTU: function, PASID, IOVA and bytes. -/
  | hostWrite (fid : Nat) (pasid : Option Nat) (iova : Nat) (data : List Byte)
  /-- A read of host memory issued: function, PASID, IOVA, length and tag. -/
  | hostRead (fid : Nat) (pasid : Option Nat) (iova : Nat) (len : Nat) (tag : Nat)
  /-- An MSI-X message (R296). -/
  | msix (fid : Nat) (vec : Nat)
  /-- A configuration-space completion, a Device Readiness Status message, a PRI or ATS message, by name. -/
  | pcie (what : String) (fid : Nat) (arg : Nat)
  /-- A frame starts on a port's transmitter: bytes with FCS. -/
  | frame (mac : Nat) (bytes : List Byte)
  /-- A frame in progress is pre-empted, or its remainder resumes (R145). -/
  | fragment (mac : Nat) (resume : Bool)
  /-- A PAUSE or PFC frame (R58): enable vector and quanta per class. -/
  | pause (mac : Nat) (enable : Byte) (quanta : List Nat)
  /-- An LLDPDU, bytes with FCS, with its low-power-idle TLV where the port advertises one (R60, R61). -/
  | lldp (mac : Nat) (bytes : List Byte)
  /-- A verify or respond mPacket (R154). -/
  | mpacket (mac : Nat) (respond : Bool)
  /-- A frame starts on a ring output (R187), or the one in transmission there is cut off (R195). -/
  | ring (port : Nat) (bytes : List Byte)
  | ringCut (port : Nat)
  /-- A wove packet sent on a path (R205): header, payload before encryption, port and UDP source port. -/
  | wove (conn : Nat) (path : Nat) (hdr : List Byte) (payload : List Byte)
  /-- A pin driven: name and level. -/
  | pin (name : String) (level : Bool)
  /-- A reply on the SMBus, MCTP or DOE side, or something handed to management firmware, by name. -/
  | mgmt (what : String) (bytes : List Byte)
  /-- Bits shifted out of the JTAG port. -/
  | tdo (bits : List Bool)
  /-- 64-bit words of the debug capture stream (R512): kind, section and unit, words. -/
  | dcap (kind : Nat) (unit : Nat) (words : List DWord)
  /-- The result of a key-slot operation (R462). -/
  | ks (bytes : Option (List Byte))
  deriving DecidableEq, Repr

/-! ## Architecture and operating grades -/

/-- The grade and its transition (R27 to R36). -/
structure GradeState where
  /-- GLB_GRADE_CURRENT.GRADE (reset 0, PROVISION). -/
  cur : Grade := .provision
  /-- The target while IN_TRANSIT is 1 (none: equal to `cur`). -/
  target : Option Grade := none
  /-- The PF whose GRADE_SET runs the transition, if that path started it. -/
  byPf : Option Nat := none
  /-- The commit point of the running transition has passed (R34; into DRAIN only). -/
  committed : Bool := false
  /-- Management firmware reports configuration committed (R32). -/
  cfgCommitted : Bool := false
  /-- The root source in use is SyncE (GLB_CLK_STATUS.ROOT_SRC). -/
  rootSyncE : Bool := false
  deriving DecidableEq, Repr

/-! ## Observability and freeze -/

/-- An event of the error-log input queue (R502). -/
structure ErrEvent where
  code : Nat
  cls : Nat
  unit : Nat
  fid : Nat
  details : List DWord
  time : DWord
  deriving DecidableEq, Repr

/-- A record of the error log (R503). -/
structure ErrRec where
  seq : Nat
  ev : ErrEvent
  count : Nat
  deriving DecidableEq, Repr

/-- A trace source (R495 to R501). -/
structure TraceSrc where
  /-- The records waiting in the FIFO (R498), oldest first. -/
  fifo : List (List Byte) := []
  /-- Records lost since the last LOST record. -/
  lost : Nat := 0
  /-- Records written since the last SYNC record. -/
  sinceSync : Nat := 0
  /-- The interval ended: the next item started is tagged (R495). -/
  owed : Bool := false
  /-- A tagged item is in flight. -/
  tagged : Bool := false
  /-- The core is in clock-gated idle (R501). -/
  idle : Bool := false
  deriving DecidableEq, Repr

/-- Error log, debug unlock, freeze and JTAG state (R488 to R513). -/
structure ObsState where
  /-- Events waiting to be logged, at most 16. -/
  errQ : List ErrEvent := []
  /-- The 256-slot ring of records by slot. -/
  errRecs : Tab ErrRec := []
  /-- The snapshot copies of the counters while PMU_SNAP.VIEW may show them (R494). -/
  snap : List (Nat × Word) := []
  /-- Trace sources 0 to 73. -/
  trace : Tab TraceSrc := []
  /-- FRZ_STATUS.ARMED. -/
  armed : Bool := false
  /-- Triggers raised and not yet accepted, the bits of R507. -/
  trig : Nat := 0
  /-- What a freeze latched (R508): DEVICE_TIME, trigger bits, grade in force, IN_TRANSIT. -/
  latched : Option (DWord × Nat × Grade × Bool) := none
  /-- DBG_STATUS.UNLOCKED. -/
  unlocked : Bool := false
  /-- The HBM ranges of FRZ_REGION (R511): stack, offset, length. -/
  regions : List (Nat × Nat × Nat) := []
  /-- What the next Capture-DR of DBG_ACCESS returns (R511). -/
  jtagDr : BitVec 65 := 0
  /-- The boundary-scan register. -/
  scan : List Bool := []
  deriving DecidableEq, Repr

/-! ## Host link, functions and isolation -/

/-- A host read outstanding under a tag (R290): its operation, whether Bus Master Enable was cleared since, and the
queue entry it serves. -/
structure HostTag where
  link : Nat
  qid : Option Nat
  entry : Nat
  discard : Bool := false
  deriving DecidableEq, Repr

/-- A vector of an MSI-X table. -/
structure MsixVec where
  addr : DWord := 0
  data : Word := 0
  masked : Bool := true
  pend : Bool := false
  deriving DecidableEq, Repr

/-- A write of a wove packet that passed its window check and waits for its page (R210): the window's key, its function
and PASID, the address, and the bytes. -/
structure HeldWrite where
  key : Nat
  fid : Nat
  pasid : Option Nat
  addr : Nat
  bytes : List Byte
  deriving DecidableEq, Repr

/-- A held operation and its Page Request (R310): the request's number, the PASID, and the queue and ring index the
operation serves. `sent`: the request is outstanding; one that is not waits for a free one. `pkt`: the operation is the
placement of a wove packet (R311), with the MAC it came from; it serves no queue. -/
structure PageReq where
  req : Nat
  pasid : Option Nat
  qid : Nat
  entry : Nat
  sent : Bool
  pkt : Option (Nat × WovePkt) := none
  /-- Of a packet that passed its window check: the write it waits for (R210). -/
  held : Option HeldWrite := none
  deriving DecidableEq, Repr

/-- Dirty-page logging of a function (R312 to R316). -/
structure DirtyLog where
  base : Nat
  length : Nat
  bitmap : Nat
  /-- The numbers of the pages whose bit is set in the current buffer, rising. -/
  bits : List Nat := []
  /-- The bitmap words changed and not yet issued, rising. -/
  changed : List Nat := []
  faulted : Bool := false
  deriving DecidableEq, Repr

/-- One PCIe function (R268 to R327). -/
structure Fn where
  memEn : Bool := false
  bme : Bool := false
  d3hot : Bool := false
  flr : Bool := false
  halted : Bool := false
  masterDisabled : Bool := false
  msixEn : Bool := false
  msixMask : Bool := false
  vfEnable : Bool := false
  numVfs : Nat := 0
  ats : Bool := false
  pri : Bool := false
  priAlloc : Nat := 0
  /-- 0: 8-bit, 1: 10-bit, 2: 14-bit tags in use (R290). -/
  tagMode : Nat := 0
  /-- The AER status bits reported so far; sticky (R282). -/
  aer : Word := 0
  /-- AER uncorrectable mask as software set it. -/
  aerMask : Word := 0
  /-- AER uncorrectable severity as software set it: by default fatal for a malformed TLP only (R298). -/
  aerSev : Word := 0x00040000
  /-- The host's ASPM settings; those of function 0 of a link count (R277). -/
  aspm : AspmEnable := {}
  /-- The addresses software wrote to the base address registers: BAR 0, 2 and 4, and VF BAR 2 and 4 as 10 and 12
  (R274). -/
  bars : Tab Nat := []
  vecs : Tab MsixVec := []
  /-- Mailbox slots (R302): the bytes that are not 0. -/
  mbxTx : Tab Byte := []
  mbxRx : Tab Byte := []
  txBusy : Bool := false
  rxFull : Bool := false
  /-- The VF's bit in its PF's pending bitmap. -/
  mbxPend : Bool := false
  mbxVec : Nat := 0
  mbxSel : Nat := 0
  /-- Quotas by resource code where they differ from the POR_N value (R317). -/
  quota : Tab Nat := []
  /-- Index resources in local order (R320): trigger slots, cipher pages, SPM banks. -/
  trigSlots : List Nat := []
  cphPages : List Nat := []
  banks : List Nat := []
  /-- Outstanding reads by tag, and quarantined tags. -/
  tags : Tab HostTag := []
  quar : List Nat := []
  nextTag : Nat := 0
  pageReqs : List PageReq := []
  nextReq : Nat := 0
  /-- The ATS invalidations not yet answered, oldest first: the tags of the reads each waits for (R309). -/
  invals : List (List Nat) := []
  dirty : Option DirtyLog := none
  deriving DecidableEq, Repr

/-- One host link (R268, R277, R293). -/
structure Link where
  /-- PM_STATE of HIF_LINK_STATUS. -/
  pm : Nat := 6
  width : Nat := 0
  active : Nat := 0
  flit : Bool := false
  up : Bool := false
  speed : Nat := 7
  lost : Bool := false
  /-- The functions answer configuration requests (config-ready). -/
  ready : Bool := false
  deriving DecidableEq, Repr

/-- A cached translation (R307). -/
structure DtuEntry where
  fid : Nat
  pasid : Option Nat
  iova : Nat
  size : Nat
  deriving DecidableEq, Repr

/-- The host section. -/
structure HostState where
  links : Tab Link := []
  fns : Tab Fn := []
  dtu : List DtuEntry := []
  perstLow : Bool := true
  split : Bool := false
  deriving DecidableEq, Repr

/-! ## Joryen commands -/

/-- A reply (R363): status, COMMITTED, output bytes, detail words. -/
structure Reply where
  status : Nat
  committed : Bool := false
  details : List Word := []
  out : List Byte := []
  deriving DecidableEq, Repr

/-- How far the channel's running command is. -/
inductive CmdPhase where
  /-- Accepted; its checks have not run. -/
  | accepted
  /-- Checked and committed; its reply waits for an event of the command (a grade transition, a BIST, a stop). -/
  | working
  /-- Settled: the reply stands and waits for its release. -/
  | settled (r : Reply)
  deriving DecidableEq, Repr

/-- A command running in a channel. -/
structure Running where
  hdr : List Byte
  phase : CmdPhase
  /-- The commit point was recorded in the channel hardware (R368). -/
  committed : Bool := false
  /-- The reply is sealed (R322). -/
  isSealed : Bool := false
  /-- Its checks ended after an abort was accepted (R368). -/
  late : Bool := false
  /-- DEVICE_TIME at acceptance. -/
  at' : DWord := 0
  deriving DecidableEq, Repr

/-- The command channel of one PF (R359): registers of the function page and the running command. -/
structure Channel where
  hdr : Tab Word := []
  reply : List Word := []
  rejected : Bool := false
  done : Bool := false
  abortDone : Bool := false
  aborting : Bool := false
  doneCnt : BitVec 16 := 0
  rejectedCnt : BitVec 8 := 0
  abortDoneCnt : BitVec 8 := 0
  reject : Word := 0
  vec : Word := 0
  cmd : Option Running := none
  deriving DecidableEq, Repr


/-! ## On-chip memory and HBM contents -/

/-- The bytes of the on-chip SRAM banks and of the HBM stacks, each in canonical form: addresses strictly rising, no
listed byte 0, which is what an unlisted byte reads as (assumption 4, DESIGN CHOICE). An SPM byte has address bank × 2^20 + offset,
an HBM byte stack × 2^40 + offset. -/
structure Memory where
  spm : List Host.Cell := []
  hbm : List Host.Cell := []
  deriving DecidableEq, Repr


/-! ## Frames, ports and the egress side -/

/-- Where a frame came from (sample record of R118): kind 0 receive port, 1 transmit, 2 host queue, 3 core, 4 wove,
5 cipher; and the MAC, QID, connection, or quire and core. -/
structure FrameSrc where
  kind : Nat
  num : Nat
  deriving DecidableEq, Repr

/-- The pool a frame's cells were charged to (R77, R78). -/
inductive Pool where
  | none | control | reserve | shared | headroom
  deriving DecidableEq, Repr

/-- A window a frame is bound to (R149): opening and close in the time of the port's PHC, in 2^-16 ns. -/
structure Win where
  opens : Nat
  closes : Nat
  deriving DecidableEq, Repr

/-- A tagged packet (R496): its source, MAC and class, length, and DEVICE_TIME at admission, parse start, retirement and
egress admission. -/
structure PktTag where
  src : Nat
  mac : Nat
  cls : Nat
  len : Nat
  admitAt : Nat
  start : Nat
  retire : Nat := 0
  egress : Nat := 0
  deriving DecidableEq, Repr

/-- A frame on its way to a port: bytes from the destination address through the FCS. -/
structure TxFrame where
  bytes : List Byte
  cls : Nat
  src : FrameSrc
  /-- The host queue entry it completes: QID and ring index. -/
  host : Option (Nat × Nat) := none
  /-- The send-queue entry of a wove packet: QID and ring index. -/
  wr : Option (Nat × Nat) := none
  /-- The TSQ (CQID) and TS_ID of a requested transmit timestamp (R181). -/
  ts : Option (Nat × Nat) := none
  /-- DEVICE_TIME when it entered its class queue (R68). -/
  enq : Nat := 0
  pool : Pool := .none
  cells : Nat := 0
  bound : Option Win := none
  /-- Preloaded behind a WAIT entry and not yet released (R164). -/
  preload : Bool := false
  /-- Its source can be held (R127); false for hairpin frames and mirror copies. -/
  canWait : Bool := true
  /-- A lane has protected it (R245), and it leaves encrypted (R29, R250). -/
  secured : Bool := false
  encrypted : Bool := false
  /-- The FRER stream named by its descriptor (R157). -/
  stream : Option Nat := none
  /-- An R-TAG was inserted already, so R158 does not apply again. -/
  tagged : Bool := false
  /-- It is a mirror copy (R116). -/
  mirror : Bool := false
  /-- The transmit pipe that runs its pass, with its place in the order of starts (R120); and whether its pass has
  ended. -/
  pass : Option (Nat × Nat) := none
  passed : Bool := false
  tag : Option PktTag := none
  /-- It found no window at this time of its port's PHC, and waits at its source for the next close of a window of its
  class (R150). -/
  tried : Option Nat := none
  /-- Its bytes that left in earlier fragments (R145). -/
  sent : Nat := 0
  /-- Its length before anything rewrote it, where that is known (R118). -/
  orig : Nat := 0
  deriving DecidableEq, Repr

/-- One entry of a deckle list (R135). -/
structure DklEntry where
  gates : Byte
  op : Nat
  interval : Nat
  /-- Bits [51:32] as written. -/
  rsv : Nat := 0
  deriving DecidableEq, Repr

/-- A deckle list with its parameters (R136): BASE_TIME in 2^-16 ns, CYCLE_TIME and CYCLE_EXT in 0.5 ns. -/
structure DklList where
  base : Nat
  cycle : Nat
  ext : Nat
  entries : List DklEntry
  deriving DecidableEq, Repr

/-- The transmit and deckle state of one port that no register shows whole (R40 to R156). -/
structure Port where
  /-- Classes paused, with the quanta of the latest pause (R54 to R57). -/
  paused : Tab Nat := []
  /-- The eight class queues, head first. -/
  queues : Tab (List TxFrame) := []
  /-- Frames waiting at the transmit inlet, oldest first (R127). -/
  waiting : List TxFrame := []
  /-- The frame in transmission. -/
  inTx : Option TxFrame := none
  /-- DEVICE_TIME at the start of the frame in transmission, or of its present fragment (R145). -/
  txAt : Nat := 0
  /-- A pre-empted frame whose remainder waits (R145). -/
  rest : Option TxFrame := none
  /-- Reserved egress cells in use per class (rule 1 of R78 under R132). -/
  egrMin : Tab Nat := []
  /-- The egress thresholds T in cells per class (R132). -/
  egrT : Tab Nat := []
  /-- Reserved inlet cells in use per class, and control cells in use (R77, R78). -/
  inMin : Tab Nat := []
  ctrlUsed : Nat := 0
  /-- TW_RESOLVED waiting for the next LLDPDU (R61). -/
  twPending : Option Nat := none
  /-- A PORT_EN write held until the squelch lifts (R466). -/
  heldEn : Option Bool := none
  /-- The entries of the admin list as written (R136). -/
  admin : Tab DklEntry := []
  /-- The committed list waiting for CCT, and CCT in 2^-16 ns (R138). -/
  pend : Option (DklList × Nat) := none
  /-- The list last committed, for DKL_LIST_READ (R516). -/
  adminList : Option DklList := none
  /-- The operational list and the CCT at which it took effect. -/
  oper : Option (DklList × Nat) := none
  /-- The start of the cycle from which its cycles run unbroken: its CCT, or the first cycle start after a step of the
  PHC (R142); and whether a step came before it. -/
  runFrom : Nat := 0
  afterStep : Bool := false
  /-- The operational list before it, with the start of its unbroken cycles; none once a step has removed them (R163). -/
  prev : Option (DklList × Nat) := none
  /-- The start of the cycle last started on the port's PHC, in 2^-16 ns. -/
  cycStart : Nat := 0
  /-- The last receive and transmit captures in 1/16 ns (R169). -/
  rxCap : Nat := 0
  txCap : Nat := 0
  /-- A hold is in force (R146). -/
  hold : Bool := false
  /-- Every gate stays closed until the next cycle start (R142). -/
  stepped : Bool := false
  /-- Verify attempts made (R154). -/
  attempts : Nat := 0
  deriving DecidableEq, Repr

/-! ## Headbox and pipes -/

/-- A header record of a parse (R93). -/
structure HdrRec where
  id : Nat
  off : Nat
  len : Nat
  depth : Nat
  inst : Nat
  role : Nat
  deriving DecidableEq, Repr

/-- The destination of a frame (R111), or none met. -/
inductive Steer where
  | host (fid : Nat)
  | core (quire core ep : Nat)
  | cipher (sa : Nat)
  | wove (conn : Nat)
  | port (mac : Nat)
  deriving DecidableEq, Repr

/-- Where a finished pass leaves a frame (R102, R112): its bytes after the rewrites, and the effects to commit when it
retires (R114). -/
structure Verdict where
  bytes : List Byte
  steer : Option Steer := none
  /-- The STEERs after a cipher STEER of the same program, in order (R111). -/
  next : List Steer := []
  drop : Option Nat := none
  queue : Option Nat := none
  tc : Option Nat := none
  counts : List Nat := []
  meters : List Nat := []
  mirrors : List Nat := []
  noops : Nat := 0
  fragment : Bool := false
  trunc : Bool := false
  /-- The frame gained bytes by PUSH (R113). -/
  pushed : Bool := false
  /-- The destination port of its L4 record at depth 0, where it is no fragment (WOV_CFG). -/
  udp : Option Nat := none
  /-- The offset where the parse ended (R91). -/
  payload : Nat := 0
  deriving DecidableEq, Repr

/-- A frame admitted to the inlet (R75 to R78), with the parse so far. -/
structure InFrame where
  mac : Nat
  cls : Nat
  ctrl : Bool
  pool : Pool
  cells : Nat
  bytes : List Byte
  /-- Receive timestamp: short time and fraction (R180). -/
  ts : Nat × Nat
  /-- DEVICE_TIME at admission. -/
  at' : Nat
  /-- Passes started so far, and its place in the order of first starts (R120). -/
  passes : Nat := 0
  seq : Nat := 0
  /-- The parse-graph slot of its first pass, which all its passes use (R89). -/
  slot : Nat := 0
  /-- Where the next pass starts: node, offset, depth and records (R94). -/
  node : Nat := 0
  off : Nat := 0
  depth : Nat := 0
  recs : List HdrRec := []
  /-- The pipe that started it, while started. -/
  pipe : Option Nat := none
  /-- What its last pass settled. -/
  verdict : Option Verdict := none
  /-- DEVICE_TIME when its first pass started. -/
  startAt : Nat := 0
  /-- The trace source that tagged it (R495). -/
  tag : Option Nat := none
  /-- Its length as received, where its bytes were rewritten since (R118). -/
  orig : Nat := 0
  /-- A lane has opened it (R246, R249). -/
  opened : Bool := false
  deriving DecidableEq, Repr

/-- A parse-graph slot (R88): words of nodes (number 20 × node + word) and of stages (10 × stage + word), as written
and as committed; words found uncorrectable keep their poison until written again (R97), stage words from 5,120 on. -/
structure GraphSlot where
  nodes : Tab Word := []
  stages : Tab Word := []
  liveNodes : Tab Word := []
  liveStages : Tab Word := []
  poison : List Nat := []
  deriving DecidableEq, Repr

/-- An exact-match entry (R103). -/
structure EmEntry where
  wide : Bool
  key : Nat
  result : Nat
  fid : Nat
  deriving DecidableEq, Repr

/-- A ternary entry (R105). -/
structure TcamEntry where
  wide : Bool
  key : Nat
  mask : Nat
  result : Nat
  deriving DecidableEq, Repr

/-- A route (R106). -/
structure Route where
  v6 : Bool
  vrf : Nat
  len : Nat
  addr : Nat
  result : Nat
  deriving DecidableEq, Repr

/-- A two-rate three-colour meter (R115): rates in bytes per second, bursts in bytes, bucket levels, and DEVICE_TIME
of the last update. -/
structure Meter where
  cir : Nat := 0
  cbs : Nat := 0
  pir : Nat := 0
  pbs : Nat := 0
  tc : Nat := 0
  tp : Nat := 0
  last : Nat := 0
  deriving DecidableEq, Repr

/-- RSS settings of a function (R83 to R87). -/
structure Rss where
  key : List Byte := []
  l4 : Bool := false
  inner : Bool := false
  n : Nat := 0
  indir : Tab Nat := []
  deriving DecidableEq, Repr

/-- Run counters of a pipe's start-slot order (R128): slots in the runs of 100 and of 1,024, control slot used, slots
used per class, recirculation slots. -/
structure Slots where
  in100 : Nat := 0
  ctrl : Nat := 0
  in1024 : Nat := 0
  used : Tab Nat := []
  recirc : Nat := 0
  deriving DecidableEq, Repr

/-- A sample awaiting delivery (R118). -/
structure Sample where
  bytes : List Byte
  deriving DecidableEq, Repr

/-- The packet section. -/
structure PacketState where
  ports : Tab Port := []
  /-- The ports are squelched until the boot tests end (R466). -/
  squelched : Bool := true
  /-- Receive FFE and DFE coefficients of each lane, which no register shows (R46). -/
  ffe : Tab (List Int) := []
  dfe : Tab (List Int) := []
  /-- Frames in the inlet by the receive role (0 to 3) that carries their port, in arrival order. -/
  inlet : Tab (List InFrame) := []
  /-- Received frames not yet admitted, by MAC, oldest first. -/
  arrived : Tab (List InFrame) := []
  slots : Tab Slots := []
  /-- The number of the next first start (R120). -/
  startSeq : Nat := 0
  /-- Pairs (0 to 3) at whose next reorder epoch a change takes effect: 1 join, 2 split; and the pipe each moving role
  goes to (R121, R126). -/
  joins : Tab Nat := []
  moves : Tab Nat := []
  /-- Roles that no pipe holds (R124), and by role the pipe whose failure last left it so. -/
  unfilled : List Nat := []
  leftBy : Tab Nat := []
  graphs : Tab GraphSlot := []
  progs : Tab (List DWord) := []
  templates : Tab (List Byte) := []
  em : List EmEntry := []
  tcam : Tab TcamEntry := []
  routes : List Route := []
  meters : Tab Meter := []
  counters : Tab DWord := []
  mirrors : Tab (Steer × Nat) := []
  rss : Tab Rss := []
  samples : List Sample := []
  deriving DecidableEq, Repr

/-! ## FRER and trigger slots -/

/-- A FRER stream (R157 to R160): parameters, generation and recovery state, counts. -/
structure Stream where
  idMode : Nat
  idMac : Nat
  idVid : Nat
  gen : Bool
  portA : Nat
  portB : Nat
  recov : Nat
  rxPorts : Nat
  history : Nat
  resetMs : Nat
  popTag : Bool
  taglessPass : Bool
  seq : Nat := 0
  takeAny : Bool := true
  rcv : Nat := 0
  hist : Nat := 0
  generated : Nat := 0
  passed : Nat := 0
  dup : Nat := 0
  ooo : Nat := 0
  rogue : Nat := 0
  lost : Nat := 0
  tagless : Nat := 0
  resets : Nat := 0
  deriving DecidableEq, Repr

/-- A trigger slot (R161 to R163). -/
structure TrigSlot where
  armed : Bool := false
  /-- 0 none, 1 TIME, 2 EDGE. -/
  mode : Nat := 0
  phc : Nat := 0
  time : Nat := 0
  period : Nat := 0
  port : Nat := 0
  cls : Nat := 0
  edge : Nat := 0
  offset : Int := 0
  skip : Nat := 0
  fires : Nat := 0
  /-- EDGE mode: the port's PHC time of arming or of the last firing (R163). -/
  last : Nat := 0
  owner : Option Nat := none
  deriving DecidableEq, Repr

/-! ## Time -/

/-- The model of a PHC (R170): BASE in 2^-16 ns, ANCHOR in 1/16 ns, RATE in 2^-48. -/
structure Phc where
  base : Nat := 0
  anchor : Nat := 0
  rate : Int := 0
  /-- The models before it, newest first: BASE, ANCHOR and RATE of each, for captures ahead of the commit ticks of the
  later ones (R173). -/
  old : List (Nat × Nat × Int) := []
  deriving DecidableEq, Repr

/-- A frame waiting for a ring output (R189): the port, whether it is the node's own, and its bytes without CRC. -/
structure RingTx where
  port : Nat
  own : Bool
  bytes : List Byte
  deriving DecidableEq, Repr

/-- The couch-ring node (R187 to R198), beside its registers. -/
structure RingState where
  /-- The next SEQ of the node's own frames. -/
  seq : Nat := 0
  /-- Broadcast frames taken of late: SRC and SEQ (R188). -/
  seen : List (Nat × Nat) := []
  /-- The transmit queues of the two rings, in the order the frames came (R189, R195). -/
  waiting : List RingTx := []
  /-- The DEVICE_TIME at which the frame in transmission on a ring output ends. -/
  busy : Tab Nat := []
  /-- The last capture by ring port, inputs 0 and 1, outputs 2 and 3, in 1/16 ns (R169). -/
  caps : Tab Nat := []
  /-- Own broadcast frames that have not returned: port and SEQ, oldest first (R194). -/
  await : List (Nat × Nat) := []
  /-- The insertion under way (R197): 0 none, 1 waiting for idle inputs, 2 open and buffering, 3 INSERT sent. -/
  phase : Nat := 0
  /-- An insertion failed and is tried again 10 ms later (R197). -/
  retry : Bool := false
  /-- The insertion follows an isolation (R197). -/
  again : Bool := false
  /-- Isolated under R190: no insertion starts until software writes CRG_CFG. -/
  dup : Bool := false
  /-- Ports whose INSERT is out, and ports whose INSERT has returned. -/
  inserts : List Nat := []
  returned : List Nat := []
  /-- The SEQ of the INSERT that is out (R190, R197). -/
  insertSeq : Nat := 0
  /-- An insertion has completed since POR_N (R198). -/
  insertedOnce : Bool := false
  /-- What arrived since the bypasses opened: port and frame, in arrival order. -/
  buffer : List (Nat × List Byte) := []
  /-- t1 of the outstanding DELAY_REQ, by the input it measures, in 1/16 ns (R191). -/
  reqAt : Tab Nat := []
  /-- SRC of the last DELAY_RESP by port, since insertion. -/
  lastSrc : Tab Nat := []
  deriving DecidableEq, Repr

/-- FRER, triggers, PHCs and the ring. -/
structure TimeState where
  streams : Tab Stream := []
  trigs : Tab TrigSlot := []
  phcs : Tab Phc := []
  /-- PPS_OUT_i is high. -/
  ppsHigh : List Nat := []
  /-- TIM_SYNCE_SEL.LANE as last applied (R186). -/
  synceLane : Nat := 0
  ring : RingState := {}
  deriving DecidableEq, Repr

/-! ## Work queues -/

/-- How a fetched entry stands. -/
inductive EntryState where
  /-- Read and checked; held behind a WAIT or a fence, or waiting for a resource. -/
  | held
  /-- It may start once the dispatcher admits it; a SCHEDULED item is never held for tokens (R433, R435). -/
  | ready (scheduled : Bool)
  /-- Its work has started. -/
  | started
  /-- Its payload has arrived and its frame is held at the source, ahead of the transmit inlet (R127). -/
  | queued
  /-- Its frame has been admitted to the transmit inlet, so the frame settles its outcome (R287, R355). -/
  | admitted
  /-- Its outcome is settled: STATUS, DETAIL, bytes 0 to 9, FLAGS of R340. -/
  | done (status detail : Nat) (info : List Byte) (flags : Nat)
  deriving DecidableEq, Repr

/-- A fetched and uncompleted entry of a queue (R332). -/
structure QEntry where
  idx : Nat
  op : Nat
  flags : Nat
  len : Nat
  addr : Nat
  raw : List Byte
  /-- Address and length of each buffer: of the gather list, or the one that ADDR and LENGTH describe. -/
  sge : List (Nat × Nat) := []
  /-- The job block of a JOB. -/
  block : List Byte := []
  /-- The payload read for it, once whole. -/
  data : Option (List Byte) := none
  state : EntryState
  deriving DecidableEq, Repr

/-- A queue (R328 to R333). `state`: 1 ACTIVE, 2 WAITING, 3 MASTER_DISABLED, 4 STOPPING, 5 STOPPED, 6 HALTED. -/
structure Queue where
  fid : Nat
  loc : Nat
  type : Nat
  base : Nat
  log2 : Nat
  pasid : Option Nat
  cq : Nat
  tsq : Option Nat
  mac : Nat
  tc : Nat
  rxMeta : Nat
  dropReport : Bool
  state : Nat := 1
  head : Nat := 0
  tail : Nat := 0
  /-- The index of the next entry to fetch. -/
  next : Nat := 0
  entries : List QEntry := []
  /-- Frames dropped with RX_NO_DESC since the last completion (R344). -/
  drops : Nat := 0
  /-- The queue is destroyed once its stop is complete (R357). -/
  destroy : Bool := false
  /-- The wove connection it belongs to. -/
  conn : Option Nat := none
  deriving DecidableEq, Repr

/-- A completion queue (R334, R345 to R348). -/
structure Cq where
  fid : Nat
  loc : Nat
  kind : Nat
  base : Nat
  log2 : Nat
  shadow : Nat
  pasid : Option Nat
  vector : Nat
  modCount : Nat
  modTime : Nat
  pi : Nat := 0
  ci : Nat := 0
  total : Word := 0
  armed : Bool := true
  timer : Bool := false
  /-- Entries held on chip while the CQ is full (R346, R183), oldest first. -/
  held : List (List Byte) := []
  /-- PI of the latest shadow write. -/
  shadowPi : Nat := 0
  /-- The next TS_ID of a TSQ (R181). -/
  tsId : Nat := 0
  /-- TSQ entries dropped since the last entry that was not (R183). -/
  lost : Nat := 0
  /-- A write of this CQ failed translation, so nothing is written any more (R351). -/
  dead : Bool := false
  deriving DecidableEq, Repr

/-- The queue section. -/
structure QueueState where
  queues : Tab Queue := []
  cqs : Tab Cq := []
  deriving DecidableEq, Repr


/-! ## Dryer -/

/-- A step the dryer took to hold to the cap (R431). -/
inductive DryStep where
  | quire (q : Nat)
  | pipeSlow
  | domain (d : Nat)
  deriving DecidableEq, Repr

/-- A published window (R167) and its reservation (R436): port, class, opening and close on the port's PHC in 2^-16 ns,
the opening as DEVICE_TIME, the BOUND_BYTES and HELD_BYTES of its record, tokens left, and whether its ramp is in force
(R437). -/
structure Resv where
  mac : Nat
  cls : Nat
  opens : Nat
  closes : Nat
  openAt : Nat := 0
  bound : Nat := 0
  held : Nat := 0
  tokens : Nat
  ramped : Bool := false
  deriving DecidableEq, Repr

/-- The dryer's state that no register shows (R427 to R440). -/
structure DryState where
  /-- Tokens spent in each of the last 1,000 µs, newest first (R429). -/
  spent : List Nat := []
  /-- AVAILABLE at the previous check (R431). -/
  lastAvail : Int := 0
  /-- The steps in force, latest first. -/
  steps : List DryStep := []
  resv : List Resv := []
  /-- A thermal emergency is in force (R440). -/
  emergency : Bool := false
  /-- The working grade DRAIN was entered from (R427). -/
  drainFrom : Grade := .provision
  /-- Domains to open once CLOSED (R423). -/
  reopen : List Nat := []
  /-- The queue served last in each class, for the round robin of R435. -/
  rr : Tab Nat := []
  /-- Rails whose clocks are being stretched (R443), and rails held at their last confirmed setting (R444). -/
  stretching : List Nat := []
  avsHeld : List Nat := []
  /-- THERM_ALERT_N is driven low (R485). -/
  alertLow : Bool := false
  /-- The floor exceeds the effective cap, and OVER_CAP was set for it (R430). -/
  overCap : Bool := false
  /-- Domains that are to close (R423). -/
  toClose : List Nat := []
  /-- The domain of the running DRY_DOMAIN_SET, and whether it opens it. -/
  domCmd : Option (Nat × Bool) := none
  /-- DEVICE_TIME of the last change of PIPE_CLK (R431). -/
  pipeAt : Option Nat := none
  /-- Ramps in force (R437): MAC, and the close of the window on the port's PHC. -/
  ramps : List (Nat × Nat) := []
  deriving DecidableEq, Repr



/-! ## Cores and threads -/

/-- An item of a channel endpoint (R381): its 64-bit words, header first, and the core it was redirected from (R399). -/
structure Item where
  words : List DWord
  via : Option Nat := none
  deriving DecidableEq, Repr

/-- An item a thread holds (R386): the endpoint it came from, its words, and how many the thread has read. -/
structure HeldItem where
  ep : Nat
  words : List DWord
  read : Nat
  via : Option Nat := none
  deriving DecidableEq, Repr

/-- What a BLOCKED thread waits for (R391): a word of an endpoint for register `rd`, any endpoint of a mask, a full
target of a sent item, or its staged items. -/
inductive Block where
  | recv (rd ep : Nat)
  | wait (rd : Nat) (mask : DWord)
  | send (target : Nat) (words : List DWord)
  | ack
  deriving DecidableEq, Repr

/-- A hardware thread (R374, R394). `st`: 0 STOPPED, 1 RUNNING, 2 BLOCKED, 3 PARKED, 4 IDLE. `ctx` holds the context
items of THREAD_CTX_SEL that differ from their reset value. -/
structure Thread where
  st : Nat := 0
  ctx : Tab DWord := []
  held : List HeldItem := []
  /-- Open items by target (R387). -/
  opens : List (Nat × List DWord) := []
  /-- Staged items, oldest first: target and words (R388). -/
  staged : List (Nat × List DWord) := []
  /-- CHSTAT.NOTARGET and CHSTAT.EMPTY. -/
  noTarget : Bool := false
  empty : Bool := false
  blocked : Option Block := none
  /-- DEVICE_TIME when it blocked. -/
  since : Nat := 0
  deriving DecidableEq, Repr

/-- A data core, numbered 8q + c (R374). -/
structure Core where
  eps : Tab (List Item) := []
  threads : Tab Thread := []
  /-- The fallback core its endpoints are redirected to (R399). -/
  redirect : Option Nat := none
  deriving DecidableEq, Repr

/-- A frame that cores hold by its handle (R383, R384), with the inlet charge it keeps. -/
structure CoreFrame where
  bytes : List Byte
  mac : Nat
  cls : Nat
  pool : Pool
  cells : Nat
  deriving DecidableEq, Repr

/-- Data cores, frame handles and the management pair (R374 to R402). -/
structure CoreState where
  cores : Tab Core := []
  frames : Tab CoreFrame := []
  /-- Quires whose items go to their fallback quire until their next QUIRE_START (R424, R426). -/
  redirected : List Nat := []
  /-- Items of the hardware (FAULT, TIMER) that wait for a slot of a full endpoint, oldest first: core, endpoint and
  words (R383). -/
  waiting : List (Nat × Nat × List DWord) := []
  /-- DEVICE_TIME of the mismatches of the last 10 s, newest first (R402). -/
  mismatches : List Nat := []
  /-- Management firmware serves (FW_READY, R361). -/
  fwReady : Bool := false
  deriving DecidableEq, Repr


/-! ## Cipher and transform -/

/-- An SA: its record and its replay-and-statistics record (R240). -/
structure Sa where
  valid : Bool := false
  typ : Nat := 0
  alg : Nat := 0
  fid : Nat := 0
  writeCnt : Nat := 0
  key : List Byte := []
  salt : List Byte := []
  seq : Nat := 0
  soft : Nat := 0
  hard : Nat := 0
  sci : Nat := 0
  ssci : Nat := 0
  flags : Word := 0
  replayWin : Nat := 0
  highest : Nat := 0
  bitmap : Nat := 0
  pktsOk : Nat := 0
  octetsOk : Nat := 0
  authFail : Nat := 0
  replay : Nat := 0
  /-- Rises where a command restarts SEQ and the replay state, so that work under the record before keeps its own (R243). -/
  gen : Nat := 0
  deriving DecidableEq, Repr

/-- What a frame in a lane waits for: protection on its way to a port, protection or opening under an action program
(R111) that then sends it on. -/
inductive LaneWork where
  | macsecTx (mac : Nat)
  | program (next : List Steer) (cls : Nat) (queue : Option Nat)
  deriving DecidableEq, Repr

/-- A frame at a lane's inlet (R247): its number there, its direction and port, the SA, its bytes without FCS, the frame
it came from, and what follows; once handed out, also its lane, the PN it was given and the SA record it runs under
(R243). -/
structure LaneFrame where
  seq : Nat
  onTx : Bool
  mac : Nat
  sa : Nat
  pn : Nat := 0
  rec' : Sa := {}
  bytes : List Byte
  frame : Option InFrame := none
  tx : Option TxFrame := none
  work : LaneWork
  /-- It is a mirror copy (R116). -/
  mirror : Bool := false
  /-- A lane before this one left it encrypted (R250). -/
  encrypted : Bool := false
  lane : Option Nat := none
  deriving DecidableEq, Repr

/-- A look-aside or transform job (R255): the queue entry it serves, its block with the block's gather lists, the lane or
engine it runs on, and the SA record it runs under (none: its key is refused). -/
structure Job where
  qid : Nat
  idx : Nat
  fid : Nat
  block : List Byte
  lane : Option Nat := none
  rec' : Option Sa := none
  /-- Its PN of a TLS record (R256), taken when it starts. -/
  seq : Nat := 0
  deriving DecidableEq, Repr

/-- The cipher section (R235 to R267). -/
structure CipherState where
  sas : Tab Sa := []
  /-- SAs in the on-chip cache, and those changed there since the last write-back (R241). -/
  cached : List Nat := []
  changed : List Nat := []
  /-- SAs whose record failed its tag when it was fetched (R240). -/
  bad : List Nat := []
  frames : List LaneFrame := []
  nextSeq : Nat := 0
  jobs : Tab Job := []
  /-- The wrapped record and the replay-and-statistics record of an SA as HBM_0 holds them (R239, R240), 128 bytes each. -/
  records : Tab (List Byte) := []
  stats : Tab (List Byte) := []
  /-- Lane pairs (0 to 3) at whose next epoch a change takes effect: 1 join, 2 split; and roles that move (R262). -/
  joins : Tab Nat := []
  moves : Tab Nat := []
  /-- Roles that no lane holds (R261). -/
  unfilled : List Nat := []
  /-- CPH_PAGE_SA_SEL by page (R267). -/
  pageSel : Tab Word := []
  /-- Jobs, job bytes, failed tags and refused keys of each function (CPH_PAGE_CNT). -/
  pageCnt : Tab (Nat × Nat × Nat × Nat) := []
  deriving DecidableEq, Repr


/-! ## Wove remote memory -/

/-- A packet of a connection that is sent or to be sent and not yet acknowledged (R218, R219). -/
structure WovTx where
  psn : Nat
  op : Nat
  first : Bool
  last : Bool
  /-- The WR it belongs to, by ring index; none for a response. -/
  wr : Option Nat
  seqAux : Nat
  key : Nat
  off : Nat
  aux : Nat
  payload : List Byte
  path : Nat := 0
  /-- The path of its first transmission (R212). -/
  origPath : Nat := 0
  txCnt : Nat := 0
  /-- The key phase and the key handle of its first transmission (R218). -/
  phase : Bool := false
  sa : Nat := 0
  /-- DEVICE_TIME of its last transmission. -/
  sentAt : Nat := 0
  acked : Bool := false
  /-- The code of its NAK, if one came (R220); 0xFF where RNR NAKs ended it (R221). -/
  nak : Option Nat := none
  /-- RNR NAKs drawn so far, and whether it waits for RNR_RETRY (R221). -/
  rnr : Nat := 0
  rnrWait : Bool := false
  /-- It is declared lost, or due again, and goes ahead of new data. -/
  resend : Bool := false
  deriving DecidableEq, Repr

/-- A WR of a send queue that has started: ring index, opcode, length, bytes handed to packets, and response bytes
placed (R228). -/
structure WovWr where
  idx : Nat
  op : Nat
  len : Nat
  key : Nat
  off : Nat
  imm : Nat
  addr : Nat
  pasid : Option Nat
  recvSeq : Nat := 0
  sent : Nat := 0
  /-- Every packet of it has been given a PSN. -/
  whole : Bool := false
  /-- PSN of its request, for READ and ATOMIC. -/
  reqPsn : Nat := 0
  got : Nat := 0
  deriving DecidableEq, Repr

/-- A READ or ATOMIC of the peer that the responder answers (R229, R230): opcode of the request, its PSN, window key,
byte offset in the window, length, operand bytes of an ATOMIC, and bytes sent so far. -/
structure WovResp where
  op : Nat
  reqPsn : Nat
  key : Nat
  off : Nat
  len : Nat
  operand : List Byte := []
  sent : Nat := 0
  deriving DecidableEq, Repr

/-- What the receiver knows of a SEND or WRITE_IMM by its RECV_SEQ (R214, R215). -/
structure WovRecv where
  placed : Nat := 0
  lastPsn : Option Nat := none
  imm : Option Nat := none
  status : Nat := 0
  detail : Nat := 0
  deriving DecidableEq, Repr

/-- A connection (R200). `state`: 1 ACTIVE, 2 DRAINING, 3 ERROR; a FREE connection is absent. -/
structure Conn where
  fid : Nat
  proto : Nat
  peer : Nat
  ipVer : Nat
  localAddr : Nat
  peerAddr : Nat
  mac : Nat
  nextHop : Nat
  vid : Nat
  tc : Nat
  dscp : Nat
  sport : Nat
  paths : Nat
  maxPayload : Nat
  sq : Nat
  rq : Nat
  rcEn : Bool
  rMax : Nat
  maxRd : Nat
  state : Nat := 1
  /-- The context is in the on-chip cache (R204). -/
  cached : Bool := false
  nextPsn : Nat
  cumTx : Nat
  unacked : List WovTx := []
  wrs : List WovWr := []
  pathNext : Nat := 0
  suspect : List Nat := []
  sendSeq : Nat := 0
  /-- Expiries in a row without an advance of CUM (R219). -/
  expiries : Nat := 0
  cum : Nat
  /-- PSNs received above cum, as distances from it, rising. -/
  recvd : List Nat := []
  sinceAck : Nat := 0
  rcvCount : Nat := 0
  ceCount : Nat := 0
  /-- HEAD of RQ at creation (R214). -/
  rqBase : Nat
  recvs : Tab WovRecv := []
  recvNext : Nat := 0
  /-- Results of atomics by request PSN, kept until the response is acknowledged (R229). -/
  atomics : Tab Nat := []
  /-- READ and ATOMIC requests of the peer not yet answered in full, oldest first. -/
  resp : List WovResp := []
  /-- The latest transmission time among packets acknowledged (R218). -/
  latestAck : Nat := 0
  /-- The earliest DEVICE_TIME of the next packet start under R222. -/
  nextAt : Nat := 0
  /-- A miss of the context cache was counted and its context is on the way (R204). -/
  missed : Bool := false
  /-- A switch of phase used up the next key of the direction, and none was installed since (R225). -/
  dueTx : Bool := false
  /-- DEVICE_TIME of the last CNP of a RoCEv2 connection (R232). -/
  cnpAt : Option Nat := none
  dueRx : Bool := false
  /-- Control sequence of the present phase. -/
  ctrlSeq : Nat := 0
  keyTx : Nat
  keyRx : Nat
  nextTx : Option Nat := none
  nextRx : Option Nat := none
  oldRx : Option Nat := none
  rekeyNow : Bool := false
  phaseTx : Bool := false
  phaseRx : Bool := false
  phaseStart : Nat
  switchRx : Nat := 0
  stalled : Bool := false
  /-- Rate R in 0.125 Gb/s, estimate F, k, n and m (R222). -/
  rate : Rat
  est : Rat := 0
  k : Nat := 0
  n : Nat := 0
  m : Nat := 0
  /-- G and R_AI of the interval under way (WOV_RC_CFG). -/
  gain : Nat := 4
  step : Nat := 4
  deriving DecidableEq, Repr

/-- A window (R208). `rights`: bit 0 REMOTE_READ, 1 REMOTE_WRITE, 2 REMOTE_ATOMIC. -/
structure Window where
  fid : Nat
  pasid : Option Nat
  base : Nat
  len : Nat
  rights : Nat
  scope : Option Nat
  gen : Nat
  deriving DecidableEq, Repr

/-- The wove section (R199 to R234). -/
structure WoveState where
  conns : Tab Conn := []
  /-- Connection numbers freed, oldest first (R202). -/
  freed : List Nat := []
  /-- Windows revoked whose reply waits for packets that passed their check before (R210), by the channel of the command; 8
  the FW_CTRL ring. -/
  revoking : Tab Nat := []
  windows : Tab Window := []
  /-- Generations of window indices opened before, and those now free, oldest first (R208). -/
  gens : Tab Nat := []
  winFreed : List Nat := []
  /-- Packets that wait for their connection's context or for a posted descriptor to be fetched (R204), oldest first:
  the MAC they came from and the packet. -/
  waiting : List (Nat × WovePkt) := []
  deriving DecidableEq, Repr


/-! ## Boot, security and package -/

/-- A copy of the minimum-version record in a flash's protected block (R457). -/
structure VerRec where
  seq : Nat
  stage1 : Nat
  mgmt : Nat
  deriving DecidableEq, Repr

/-- The fuses (R451, R455 to R460, R505): the blown order code, revoked key entries, the digests of the key entries, the
fused floors of stage 1 and management, the Device Serial Number, the unique device secret and the digest of the
debug-unlock key. -/
structure Fuses where
  order : Option Nat := none
  revoked : List Nat := []
  digests : Tab (List Byte) := []
  floor1 : Nat := 0
  floor2 : Nat := 0
  serial : Nat := 0
  secret : List Byte := []
  debug : List Byte := []
  deriving DecidableEq, Repr

/-- The module of a MAC as management firmware sees it (R487): timeouts in a row, whether it is unreachable, and whether
its interrupt is masked and polled. -/
structure Module where
  timeouts : Nat := 0
  unreachable : Bool := false
  masked : Bool := false
  deriving DecidableEq, Repr

/-- Boot, security and package state that no register shows (R446 to R471, R487). -/
structure BootState where
  /-- The content of the key slots by slot (R460). -/
  keys : Tab (List Byte) := []
  /-- Boot sources still to try, the present one first: 0 flash A, 1 flash B, 2 host push, 3 BMC push (R451). -/
  sources : List Nat := []
  /-- The push under way, 2 or 3 (R452). -/
  push : Option Nat := none
  /-- The images in use by TYPE: 1 stage 1, 2 management, 3 boot configuration (R454, R455). -/
  images : Tab (List Byte) := []
  /-- The boot configuration has been carried out, or there is none (R467). -/
  configured : Bool := false
  /-- The manager's SPDM session is established (R463). -/
  session : Bool := false
  /-- The device was FROZEN when POR_N fell (R449, R510). -/
  frozenExit : Bool := false
  /-- THERM_TRIP_N is driven low since a trip (R486). -/
  tripLow : Bool := false
  fuses : Fuses := {}
  /-- The contents of flash A (0) and B (1) from offset 0x10000 on (R454). -/
  flash : Tab (List Byte) := []
  /-- The minimum-version records by 2 × flash + copy; an absent one is not valid (R457). -/
  verRecs : Tab VerRec := []
  /-- The levels of the strap balls, as BOOT_STRAPS[5:0] orders them (R470). -/
  straps : Nat := 0
  /-- Modules by MAC (R487). -/
  modules : Tab Module := []
  deriving DecidableEq, Repr


/-! ## Memory control -/

/-- The SPM and HBM control state that no register shows (R405 to R419). -/
structure MemCtl where
  /-- Handovers in progress by bank: the owner word that takes effect, and KEEP (R407). -/
  handover : Tab (Word × Bool) := []
  /-- The march run in progress: first bank, count, destructive (R411). -/
  march : Option (Nat × Nat × Bool) := none
  /-- SPM words that keep their poison: bank × 16,384 + word (R410). -/
  spmPoison : List Nat := []
  /-- HBM locations that keep their poison: stack and location (R416). -/
  hbmPoison : List (Nat × HbmLoc) := []
  /-- Corrections of rows in the present scrub pass: stack and row (column 0), count (R417). -/
  rowCe : List ((Nat × HbmLoc) × Nat) := []
  /-- Rows under soft repair, and rows repaired for good (R417, R418). -/
  soft : List (Nat × HbmLoc) := []
  hard : List (Nat × HbmLoc) := []
  deriving DecidableEq, Repr

/-! ## Registers -/

/-- How a register row is laid out: one word; a two-word register under R21 and R22; a 48-bit counter. -/
inductive RegKind where
  | plain | wide | counter
  deriving DecidableEq, Repr

/-- One row of the register map: the lowest address, the instances as (count, stride) pairs, the writable bits of the
low and high word (RW and RWL), the W1C bits, the read-to-clear bits, the reset values, whether only POR_N resets it
(`porOnly`), whether only VDD_AON power-up does (`aon`), and the fields a write of which outside the listed inclusive
ranges is ignored, as (high bit, low bit, ranges). -/
structure RegRow where
  base : Nat
  dims : List (Nat × Nat) := []
  kind : RegKind := .plain
  rwLo : Nat := 0
  rwHi : Nat := 0
  w1c : Nat := 0
  rc : Nat := 0
  rstLo : Nat := 0
  rstHi : Nat := 0
  porOnly : Bool := false
  aon : Bool := false
  checks : List (Nat × Nat × List (Nat × Nat)) := []
  deriving DecidableEq, Repr

/-! ## The state -/

/-- The state of the block. -/
structure State where
  /-- The commands waiting, first in first out. -/
  pending : List Instr := []
  /-- The fused variant (GLB_ID.VARIANT; assumption 1, DESIGN CHOICE). -/
  variant : Variant := .ax
  /-- What holds the device in reset. -/
  power : Power := .porLow
  /-- DEVICE_TIME in ticks of 0.5 ns (R19, R168). -/
  deviceTime : DWord := 0
  /-- The model's own index of the next free value (assumption 2, DESIGN CHOICE); no state of the device. -/
  fresh : Nat := 0
  /-- The words of BAR 0 registers that differ from their reset value, by address, rising. -/
  regs : List (Nat × Word) := []
  /-- The read latch of each master that read a `_LO` word (R21). -/
  readLatch : List (Master × Word) := []
  /-- The write latch of each master holding a `_LO` word: address and word (R22). -/
  writeLatch : List (Master × Nat × Word) := []
  /-- What the device has sent, newest first. -/
  out : List Out := []
  /-- Grades (R27 to R37). -/
  grade : GradeState := {}
  /-- Error log, trace, debug and freeze (R488 to R513). -/
  obs : ObsState := {}
  /-- Host link and functions (R268 to R327). -/
  host : HostState := {}
  /-- The command channels of PF 0 to PF 7 (R359). -/
  chans : Tab Channel := []
  /-- The bytes of the SPM banks and of the HBM (R403, R415). -/
  mem : Memory := {}
  /-- Ports, headbox, pipes, tables and broke (R40 to R156). -/
  pkt : PacketState := {}
  /-- FRER streams, trigger slots and PHC models (R157 to R177). -/
  time : TimeState := {}
  /-- Work queues and completion queues (R328 to R358). -/
  wq : QueueState := {}
  /-- The dryer (R420 to R444). -/
  dry : DryState := {}
  /-- Data cores and the management pair (R374 to R402). -/
  cores : CoreState := {}
  /-- Cipher lanes, SAs and jobs (R235 to R267). -/
  cph : CipherState := {}
  /-- Wove connections and windows (R199 to R234). -/
  wove : WoveState := {}
  /-- Boot, key slots and flash (R445 to R471). -/
  boot : BootState := {}
  /-- SPM and HBM control (R405 to R419). -/
  memc : MemCtl := {}
  deriving DecidableEq, Repr

/-- The state right after reset: power has just come up with POR_N low (R446, R449), every register and table at its
reset value, the queue of commands empty. BOOT_RESET_CAUSE carries AON_UP with its counter, as R449 says of power-up;
both are the reset values of the register map, so `regs` lists nothing. -/
def State.reset : State := {}

end Sys2Proof.Machine
end

