-- ==== Sys2Proof/Machine/RegMap.lean ====
section
/-! DEFINITION. The register map of BAR 0 (R8, R9, R10): the address of every register the spec names, and one table
row per register with its writable bits, its write-1-to-clear bits, its read-to-clear bits, its reset value and the
ranges a write must respect; the unit map (R10, R11, R488); and the value each register has after reset. -/

namespace Sys2Proof.Machine

/-! Addresses of the registers, in the order of the map. An argument is an instance number; a two-word register is
named by the address of its low word. -/


/-- GLB_ID (file 01). -/
def Reg.GLB_ID : Nat := 0x00000000

/-- GLB_CAP (file 01). -/
def Reg.GLB_CAP : Nat := 0x00000004

/-- GLB_GRADE_CURRENT (R34). -/
def Reg.GLB_GRADE_CURRENT : Nat := 0x00000010

/-- GLB_GRADE_REQUEST (R31). -/
def Reg.GLB_GRADE_REQUEST : Nat := 0x00000014

/-- GLB_GRADE_STATUS (R36). -/
def Reg.GLB_GRADE_STATUS : Nat := 0x00000018

/-- GLB_GRADE_STATUS_OCC (R25). -/
def Reg.GLB_GRADE_STATUS_OCC : Nat := 0x0000001C

/-- GLB_DRAIN_TIMEOUT (R36). -/
def Reg.GLB_DRAIN_TIMEOUT : Nat := 0x00000020

/-- GLB_CLK_CTRL (R16). -/
def Reg.GLB_CLK_CTRL : Nat := 0x00000040

/-- GLB_CLK_STATUS (R16). -/
def Reg.GLB_CLK_STATUS : Nat := 0x00000044

/-- GLB_CLK_STATUS_OCC (R25). -/
def Reg.GLB_CLK_STATUS_OCC : Nat := 0x00000048

/-- GLB_STRETCH_CNT (R18). -/
def Reg.GLB_STRETCH_CNT : Nat := 0x00000050

/-- GLB_SMB_STATUS (R487). -/
def Reg.GLB_SMB_STATUS : Nat := 0x00000080

/-- GLB_SMB_STATUS_OCC (R487). -/
def Reg.GLB_SMB_STATUS_OCC : Nat := 0x00000084

/-- GLB_PIN_LEVEL (R487). -/
def Reg.GLB_PIN_LEVEL : Nat := 0x00000088

/-- GLB_ERR_CFG (R502). -/
def Reg.GLB_ERR_CFG : Nat := 0x00010000

/-- GLB_ERR_SEQ (R502). -/
def Reg.GLB_ERR_SEQ : Nat := 0x00010004

/-- GLB_ERR_DROPPED (R502). -/
def Reg.GLB_ERR_DROPPED : Nat := 0x00010010

/-- GLB_ERR_REC (R503). -/
def Reg.GLB_ERR_REC (i : Nat) : Nat := 0x00011000 + 4 * i

/-- HIF_LINK_STATUS (R293). -/
def Reg.HIF_LINK_STATUS (i : Nat) : Nat := 0x01000000 + 0x100 * i

/-- HIF_LINK_PM (R277). -/
def Reg.HIF_LINK_PM (i : Nat) : Nat := 0x01000004 + 0x100 * i

/-- HIF_CPL_TIMEOUT (R273). -/
def Reg.HIF_CPL_TIMEOUT : Nat := 0x01000008

/-- HIF_EVENT (R292). -/
def Reg.HIF_EVENT (i : Nat) : Nat := 0x01000010 + 0x100 * i

/-- HIF_EVENT_OCC (R292). -/
def Reg.HIF_EVENT_OCC (i : Nat) : Nat := 0x01000014 + 0x100 * i

/-- HIF_TAG_STATUS (R290). -/
def Reg.HIF_TAG_STATUS (i : Nat) : Nat := 0x01000020 + 0x100 * i

/-- HIF_CPL_LATE (R291). -/
def Reg.HIF_CPL_LATE : Nat := 0x01000040

/-- HIF_QUAR_EXPIRED (R291). -/
def Reg.HIF_QUAR_EXPIRED : Nat := 0x01000048

/-- HIF_FN_STATE (R286). -/
def Reg.HIF_FN_STATE (i : Nat) : Nat := 0x01020000 + 4 * i

/-- FN_DIRTY_STATUS (R316). -/
def Reg.FN_DIRTY_STATUS : Nat := 0x01040000

/-- FN_DIRTY_STATUS_OCC (R316). -/
def Reg.FN_DIRTY_STATUS_OCC : Nat := 0x01040004

/-- FN_DIRTY_OUTSIDE (R313). -/
def Reg.FN_DIRTY_OUTSIDE : Nat := 0x01040010

/-- FN_DENIED (R327). -/
def Reg.FN_DENIED : Nat := 0x01040020

/-- DTU_CFG (R310). -/
def Reg.DTU_CFG : Nat := 0x01080000

/-- DTU_HIT (R308). -/
def Reg.DTU_HIT : Nat := 0x01080100

/-- DTU_MISS (R308). -/
def Reg.DTU_MISS : Nat := 0x01080108

/-- DTU_INVAL (R309). -/
def Reg.DTU_INVAL : Nat := 0x01080110

/-- DTU_PRI_FAIL (R310). -/
def Reg.DTU_PRI_FAIL : Nat := 0x01080118

/-- Q_STATE (R358). -/
def Reg.Q_STATE (i : Nat) : Nat := 0x02000000 + 4 * i

/-- CQ_STATE (R358). -/
def Reg.CQ_STATE (i : Nat) : Nat := 0x02080000 + 4 * i

/-- Q_HALT_STATUS (R351). -/
def Reg.Q_HALT_STATUS : Nat := 0x02100000

/-- Q_HALT_STATUS_OCC (R351). -/
def Reg.Q_HALT_STATUS_OCC : Nat := 0x02100004

/-- Q_LAST_MALFORMED (R351). -/
def Reg.Q_LAST_MALFORMED : Nat := 0x02100010

/-- MAC_LG_CFG (R40). -/
def Reg.MAC_LG_CFG (i : Nat) : Nat := 0x03000000 + 0x40000 * i

/-- MAC_PORT_CFG (R44). -/
def Reg.MAC_PORT_CFG (i : Nat) : Nat := 0x03000010 + 0x10000 * i

/-- MAC_PORT_STATUS (R66). -/
def Reg.MAC_PORT_STATUS (i : Nat) : Nat := 0x03000014 + 0x10000 * i

/-- MAC_PORT_STATUS_OCC (R66). -/
def Reg.MAC_PORT_STATUS_OCC (i : Nat) : Nat := 0x03000018 + 0x10000 * i

/-- MAC_HOLD_CFG (R67). -/
def Reg.MAC_HOLD_CFG (i : Nat) : Nat := 0x03000020 + 0x10000 * i

/-- MAC_STALE_CFG (R68). -/
def Reg.MAC_STALE_CFG (i : Nat) : Nat := 0x03000024 + 0x10000 * i

/-- MAC_PFC_CFG (R54). -/
def Reg.MAC_PFC_CFG (i : Nat) : Nat := 0x03000030 + 0x10000 * i

/-- MAC_PRIO_TC (R54). -/
def Reg.MAC_PRIO_TC (i : Nat) : Nat := 0x03000034 + 0x10000 * i

/-- MAC_PFC_TX_TIME (R58). -/
def Reg.MAC_PFC_TX_TIME (i : Nat) : Nat := 0x03000038 + 0x10000 * i

/-- MAC_QI_LOCAL (R61). -/
def Reg.MAC_QI_LOCAL (i : Nat) : Nat := 0x03000040 + 0x10000 * i

/-- MAC_QI_PARTNER (R61). -/
def Reg.MAC_QI_PARTNER (i : Nat) : Nat := 0x03000044 + 0x10000 * i

/-- MAC_QI_STATUS (R61). -/
def Reg.MAC_QI_STATUS (i : Nat) : Nat := 0x03000048 + 0x10000 * i

/-- MAC_TS_CORR_INT (R64). -/
def Reg.MAC_TS_CORR_INT (i : Nat) : Nat := 0x03000050 + 0x10000 * i

/-- MAC_TS_CORR_BOARD_TX (R63). -/
def Reg.MAC_TS_CORR_BOARD_TX (i : Nat) : Nat := 0x03000054 + 0x10000 * i

/-- MAC_TS_CORR_BOARD_RX (R63). -/
def Reg.MAC_TS_CORR_BOARD_RX (i : Nat) : Nat := 0x03000058 + 0x10000 * i

/-- MAC_LANE_EQ_CTRL (R47). -/
def Reg.MAC_LANE_EQ_CTRL (i : Nat) (j : Nat) : Nat := 0x03000400 + 0x10000 * i + 0x100 * j

/-- MAC_LANE_EQ_STATUS (R48). -/
def Reg.MAC_LANE_EQ_STATUS (i : Nat) (j : Nat) : Nat := 0x03000404 + 0x10000 * i + 0x100 * j

/-- MAC_LANE_EQ_STATUS_OCC (R48). -/
def Reg.MAC_LANE_EQ_STATUS_OCC (i : Nat) (j : Nat) : Nat := 0x03000408 + 0x10000 * i + 0x100 * j

/-- MAC_LANE_TX_FFE (R49). -/
def Reg.MAC_LANE_TX_FFE (i : Nat) (j : Nat) : Nat := 0x03000410 + 0x10000 * i + 0x100 * j

/-- RX_FRAMES_OK (R74). -/
def Reg.RX_FRAMES_OK (i : Nat) : Nat := 0x03001000 + 0x10000 * i

/-- RX_OCTETS_OK (R74). -/
def Reg.RX_OCTETS_OK (i : Nat) : Nat := 0x03001008 + 0x10000 * i

/-- RX_FCS_ERR (R74). -/
def Reg.RX_FCS_ERR (i : Nat) : Nat := 0x03001010 + 0x10000 * i

/-- RX_FEC_DISCARD (R74). -/
def Reg.RX_FEC_DISCARD (i : Nat) : Nat := 0x03001018 + 0x10000 * i

/-- RX_RUNT (R74). -/
def Reg.RX_RUNT (i : Nat) : Nat := 0x03001020 + 0x10000 * i

/-- RX_OVERSIZE (R74). -/
def Reg.RX_OVERSIZE (i : Nat) : Nat := 0x03001028 + 0x10000 * i

/-- RX_PAUSE (R74). -/
def Reg.RX_PAUSE (i : Nat) : Nat := 0x03001030 + 0x10000 * i

/-- RX_PFC_IGNORED (R74). -/
def Reg.RX_PFC_IGNORED (i : Nat) : Nat := 0x03001038 + 0x10000 * i

/-- FEC_CORRECTED (R74). -/
def Reg.FEC_CORRECTED (i : Nat) : Nat := 0x03001040 + 0x10000 * i

/-- FEC_UNCORRECTED (R74). -/
def Reg.FEC_UNCORRECTED (i : Nat) : Nat := 0x03001048 + 0x10000 * i

/-- TX_FRAMES_OK (R74). -/
def Reg.TX_FRAMES_OK (i : Nat) : Nat := 0x03001050 + 0x10000 * i

/-- TX_OCTETS_OK (R74). -/
def Reg.TX_OCTETS_OK (i : Nat) : Nat := 0x03001058 + 0x10000 * i

/-- TX_PAUSE (R74). -/
def Reg.TX_PAUSE (i : Nat) : Nat := 0x03001060 + 0x10000 * i

/-- TX_LINK_DOWN (R74). -/
def Reg.TX_LINK_DOWN (i : Nat) : Nat := 0x03001068 + 0x10000 * i

/-- TX_STALE (R74). -/
def Reg.TX_STALE (i : Nat) : Nat := 0x03001070 + 0x10000 * i

/-- TX_GATE_MISSED (R74). -/
def Reg.TX_GATE_MISSED (i : Nat) : Nat := 0x03001078 + 0x10000 * i

/-- LPI_ENTRIES (R74). -/
def Reg.LPI_ENTRIES (i : Nat) : Nat := 0x03001080 + 0x10000 * i

/-- HOLD_RETURNS (R74). -/
def Reg.HOLD_RETURNS (i : Nat) : Nat := 0x03001088 + 0x10000 * i

/-- HBX_BUF_CFG (R75). -/
def Reg.HBX_BUF_CFG : Nat := 0x03080000

/-- HBX_BUF_STATUS (R79). -/
def Reg.HBX_BUF_STATUS : Nat := 0x03080004

/-- HBX_BUF_POOL (R80). -/
def Reg.HBX_BUF_POOL : Nat := 0x03080008

/-- HBX_CFG_STATUS (R80). -/
def Reg.HBX_CFG_STATUS : Nat := 0x03080010

/-- HBX_CFG_STATUS_OCC (R80). -/
def Reg.HBX_CFG_STATUS_OCC : Nat := 0x03080014

/-- HBX_CTRL_ETYPE (R77). -/
def Reg.HBX_CTRL_ETYPE : Nat := 0x03080020

/-- HBX_DSCP_MAP (R76). -/
def Reg.HBX_DSCP_MAP (i : Nat) : Nat := 0x03080030 + 4 * i

/-- HBX_DSCP_MAP_6 (R76). -/
def Reg.HBX_DSCP_MAP_6 : Nat := 0x03080048

/-- HBX_PORT_CFG (R76). -/
def Reg.HBX_PORT_CFG (i : Nat) : Nat := 0x03080100 + 0x20 * i

/-- HBX_PORT_SHARE (R78). -/
def Reg.HBX_PORT_SHARE (i : Nat) : Nat := 0x03080104 + 0x20 * i

/-- HBX_PORT_CTRL_RES (R77). -/
def Reg.HBX_PORT_CTRL_RES (i : Nat) : Nat := 0x03080108 + 0x20 * i

/-- HBX_PORT_USED (R78). -/
def Reg.HBX_PORT_USED (i : Nat) : Nat := 0x0308010C + 0x20 * i

/-- HBX_PORT_FID (R112). -/
def Reg.HBX_PORT_FID (i : Nat) : Nat := 0x03080110 + 0x20 * i

/-- HBX_CLASS_CFG (R79). -/
def Reg.HBX_CLASS_CFG (i : Nat) (j : Nat) : Nat := 0x03081000 + 0x100 * i + 0x10 * j

/-- HBX_CLASS_PFC (R78). -/
def Reg.HBX_CLASS_PFC (i : Nat) (j : Nat) : Nat := 0x03081004 + 0x100 * i + 0x10 * j

/-- HBX_CLASS_USED (R82). -/
def Reg.HBX_CLASS_USED (i : Nat) (j : Nat) : Nat := 0x03081008 + 0x100 * i + 0x10 * j

/-- HBX_CLASS_THRESH (R79). -/
def Reg.HBX_CLASS_THRESH (i : Nat) (j : Nat) : Nat := 0x0308100C + 0x100 * i + 0x10 * j

/-- HBX_INLET_DROP (R78). -/
def Reg.HBX_INLET_DROP (i : Nat) (j : Nat) : Nat := 0x03082000 + 0x40 * i + 0x8 * j

/-- PIPE_GRAPH_SEL (R89). -/
def Reg.PIPE_GRAPH_SEL (i : Nat) : Nat := 0x03100000 + 0x10000 * i

/-- PIPE_ROLE (R122). -/
def Reg.PIPE_ROLE (i : Nat) : Nat := 0x03100010 + 0x10000 * i

/-- PIPE_ROLE_SPARE (R122). -/
def Reg.PIPE_ROLE_SPARE (i : Nat) : Nat := 0x03180010 + 0x10000 * i

/-- PIPE_FAULT (R122). -/
def Reg.PIPE_FAULT (i : Nat) : Nat := 0x03100014 + 0x10000 * i

/-- PIPE_FAULT_OCC (R122). -/
def Reg.PIPE_FAULT_OCC (i : Nat) : Nat := 0x03100018 + 0x10000 * i

/-- PIPE_PAIR_STATUS (R121). -/
def Reg.PIPE_PAIR_STATUS (i : Nat) : Nat := 0x03100020 + 0x20000 * i

/-- PIPE_PARSE_TRUNC (R95). -/
def Reg.PIPE_PARSE_TRUNC (i : Nat) : Nat := 0x03100100 + 0x10000 * i

/-- PIPE_FRAGMENTS (R98). -/
def Reg.PIPE_FRAGMENTS (i : Nat) : Nat := 0x03100108 + 0x10000 * i

/-- PIPE_RECIRC_DROP (R128). -/
def Reg.PIPE_RECIRC_DROP (i : Nat) : Nat := 0x03100110 + 0x10000 * i

/-- PIPE_REPLAYED (R122). -/
def Reg.PIPE_REPLAYED (i : Nat) : Nat := 0x03100118 + 0x10000 * i

/-- PIPE_ACT_NOOP (R113). -/
def Reg.PIPE_ACT_NOOP (i : Nat) : Nat := 0x03100120 + 0x10000 * i

/-- PIPE_INLET_CLASS (R127). -/
def Reg.PIPE_INLET_CLASS (i : Nat) (j : Nat) : Nat := 0x03100200 + 0x10000 * i + 4 * j

/-- TBL_EM_USED (R103). -/
def Reg.TBL_EM_USED : Nat := 0x03200000

/-- TBL_TCAM_USED (R105). -/
def Reg.TBL_TCAM_USED : Nat := 0x03200004

/-- TBL_LPM_USED (R106). -/
def Reg.TBL_LPM_USED : Nat := 0x03200008

/-- TBL_RANGE (R107). -/
def Reg.TBL_RANGE (i : Nat) : Nat := 0x03201000 + 8 * i

/-- BRK_REASON_CFG (R118). -/
def Reg.BRK_REASON_CFG (i : Nat) : Nat := 0x03280000 + 4 * i

/-- BRK_SAMPLE_CFG (R118). -/
def Reg.BRK_SAMPLE_CFG : Nat := 0x03280800

/-- BRK_SAMPLE_LOST (R118). -/
def Reg.BRK_SAMPLE_LOST : Nat := 0x03280810

/-- BRK_DROP (R117). -/
def Reg.BRK_DROP (i : Nat) : Nat := 0x03281000 + 8 * i

/-- DKL_PORT_CFG (R141). -/
def Reg.DKL_PORT_CFG (i : Nat) : Nat := 0x04000000 + 0x10000 * i

/-- DKL_PORT_STATUS (R142). -/
def Reg.DKL_PORT_STATUS (i : Nat) : Nat := 0x04000004 + 0x10000 * i

/-- DKL_PORT_STATUS_OCC (R142). -/
def Reg.DKL_PORT_STATUS_OCC (i : Nat) : Nat := 0x04000008 + 0x10000 * i

/-- DKL_GUARD (R147). -/
def Reg.DKL_GUARD (i : Nat) : Nat := 0x0400000C + 0x10000 * i

/-- DKL_OPER_POS (R137). -/
def Reg.DKL_OPER_POS (i : Nat) : Nat := 0x04000010 + 0x10000 * i

/-- DKL_CLASS_CFG (R133). -/
def Reg.DKL_CLASS_CFG (i : Nat) (j : Nat) : Nat := 0x04000100 + 0x10000 * i + 4 * j

/-- DKL_PREEMPT_CFG (R153). -/
def Reg.DKL_PREEMPT_CFG (i : Nat) : Nat := 0x04000200 + 0x10000 * i

/-- DKL_PREEMPT_STATUS (R154). -/
def Reg.DKL_PREEMPT_STATUS (i : Nat) : Nat := 0x04000204 + 0x10000 * i

/-- DKL_PREEMPT_STATUS_OCC (R154). -/
def Reg.DKL_PREEMPT_STATUS_OCC (i : Nat) : Nat := 0x04000208 + 0x10000 * i

/-- DKL_EGR_SHARE (R132). -/
def Reg.DKL_EGR_SHARE (i : Nat) : Nat := 0x04000300 + 0x10000 * i

/-- DKL_EGR_CLASS (R132). -/
def Reg.DKL_EGR_CLASS (i : Nat) (j : Nat) : Nat := 0x04000340 + 0x10000 * i + 8 * j

/-- DKL_EGR_CLASS_USED (R132). -/
def Reg.DKL_EGR_CLASS_USED (i : Nat) (j : Nat) : Nat := 0x04000344 + 0x10000 * i + 8 * j

/-- DKL_SDU_OVERRUN (R156). -/
def Reg.DKL_SDU_OVERRUN (i : Nat) : Nat := 0x04001000 + 0x10000 * i

/-- DKL_BIND_WAIT (R156). -/
def Reg.DKL_BIND_WAIT (i : Nat) : Nat := 0x04001008 + 0x10000 * i

/-- MM_FRAG_TX (R156). -/
def Reg.MM_FRAG_TX (i : Nat) : Nat := 0x04001010 + 0x10000 * i

/-- MM_FRAG_RX (R156). -/
def Reg.MM_FRAG_RX (i : Nat) : Nat := 0x04001018 + 0x10000 * i

/-- MM_ASSY_OK (R156). -/
def Reg.MM_ASSY_OK (i : Nat) : Nat := 0x04001020 + 0x10000 * i

/-- MM_ASSY_ERR (R156). -/
def Reg.MM_ASSY_ERR (i : Nat) : Nat := 0x04001028 + 0x10000 * i

/-- MM_SMD_ERR (R156). -/
def Reg.MM_SMD_ERR (i : Nat) : Nat := 0x04001030 + 0x10000 * i

/-- MM_HOLD (R156). -/
def Reg.MM_HOLD (i : Nat) : Nat := 0x04001038 + 0x10000 * i

/-- DKL_EGR_POOL (R132). -/
def Reg.DKL_EGR_POOL : Nat := 0x04080000

/-- DKL_EGR_FREE (R132). -/
def Reg.DKL_EGR_FREE : Nat := 0x04080004

/-- DKL_EGR_STATUS (R132). -/
def Reg.DKL_EGR_STATUS : Nat := 0x04080010

/-- DKL_EGR_STATUS_OCC (R132). -/
def Reg.DKL_EGR_STATUS_OCC : Nat := 0x04080014

/-- FRER_USED (R160). -/
def Reg.FRER_USED : Nat := 0x04100000

/-- DKL_TRIG_STATE (R161). -/
def Reg.DKL_TRIG_STATE (i : Nat) : Nat := 0x04180000 + 4 * i

/-- TIM_PHC_CTRL (R177). -/
def Reg.TIM_PHC_CTRL (i : Nat) : Nat := 0x04200000 + 0x10000 * i

/-- TIM_PHC_STATUS (R176). -/
def Reg.TIM_PHC_STATUS (i : Nat) : Nat := 0x04200004 + 0x10000 * i

/-- TIM_PHC_STATUS_OCC (R176). -/
def Reg.TIM_PHC_STATUS_OCC (i : Nat) : Nat := 0x04200008 + 0x10000 * i

/-- TIM_PHC_RATE (R172). -/
def Reg.TIM_PHC_RATE (i : Nat) : Nat := 0x04200010 + 0x10000 * i

/-- TIM_PHC_STEP_SEC (R175). -/
def Reg.TIM_PHC_STEP_SEC (i : Nat) : Nat := 0x04200020 + 0x10000 * i

/-- TIM_PHC_STEP_NS (R175). -/
def Reg.TIM_PHC_STEP_NS (i : Nat) : Nat := 0x04200028 + 0x10000 * i

/-- TIM_PHC_STEP_GO (R175). -/
def Reg.TIM_PHC_STEP_GO (i : Nat) : Nat := 0x0420002C + 0x10000 * i

/-- TIM_PHC_SNAP_GO (R173). -/
def Reg.TIM_PHC_SNAP_GO (i : Nat) : Nat := 0x04200030 + 0x10000 * i

/-- TIM_PHC_SNAP_SEC (R173). -/
def Reg.TIM_PHC_SNAP_SEC (i : Nat) : Nat := 0x04200038 + 0x10000 * i

/-- TIM_PHC_SNAP_NS (R173). -/
def Reg.TIM_PHC_SNAP_NS (i : Nat) : Nat := 0x04200040 + 0x10000 * i

/-- TIM_PHC_SNAP_FRAC (R173). -/
def Reg.TIM_PHC_SNAP_FRAC (i : Nat) : Nat := 0x04200044 + 0x10000 * i

/-- TIM_PHC_SNAP_DT (R173). -/
def Reg.TIM_PHC_SNAP_DT (i : Nat) : Nat := 0x04200048 + 0x10000 * i

/-- TIM_DT (R168). -/
def Reg.TIM_DT : Nat := 0x04280000

/-- TIM_PPS_IN_CFG (R184). -/
def Reg.TIM_PPS_IN_CFG (i : Nat) : Nat := 0x04280010 + 4 * i

/-- TIM_PPS_IN_TS (R184). -/
def Reg.TIM_PPS_IN_TS (i : Nat) : Nat := 0x04280020 + 8 * i

/-- TIM_PPS_STATUS (R184). -/
def Reg.TIM_PPS_STATUS : Nat := 0x04280030

/-- TIM_PPS_STATUS_OCC (R184). -/
def Reg.TIM_PPS_STATUS_OCC : Nat := 0x04280034

/-- TIM_PPS_OUT_CFG (R185). -/
def Reg.TIM_PPS_OUT_CFG (i : Nat) : Nat := 0x04280040 + 8 * i

/-- TIM_PPS_OUT_ADJ (R185). -/
def Reg.TIM_PPS_OUT_ADJ (i : Nat) : Nat := 0x04280044 + 8 * i

/-- TIM_SYNCE_SEL (R186). -/
def Reg.TIM_SYNCE_SEL : Nat := 0x04280050

/-- TIM_PORT_TS (R180). -/
def Reg.TIM_PORT_TS (i : Nat) : Nat := 0x04280100 + 4 * i

/-- CRG_CFG (R190). -/
def Reg.CRG_CFG : Nat := 0x04300000

/-- CRG_STATUS (R195). -/
def Reg.CRG_STATUS : Nat := 0x04300004

/-- CRG_STATUS_OCC (R195). -/
def Reg.CRG_STATUS_OCC : Nat := 0x04300008

/-- CRG_PORT_ERR (R194). -/
def Reg.CRG_PORT_ERR (i : Nat) : Nat := 0x04300010 + 4 * i

/-- CRG_LINK_DELAY (R191). -/
def Reg.CRG_LINK_DELAY (i : Nat) : Nat := 0x04300020 + 4 * i

/-- CRG_ASYM (R191). -/
def Reg.CRG_ASYM (i : Nat) : Nat := 0x04300028 + 4 * i

/-- CRG_OFFSET (R192). -/
def Reg.CRG_OFFSET : Nat := 0x04300030

/-- CRG_EPOCH_LATE (R193). -/
def Reg.CRG_EPOCH_LATE : Nat := 0x04300040

/-- WOV_CFG (R205). -/
def Reg.WOV_CFG : Nat := 0x05000000

/-- WOV_TIMERS (R216). -/
def Reg.WOV_TIMERS : Nat := 0x05000004

/-- WOV_RTO (R219). -/
def Reg.WOV_RTO : Nat := 0x05000008

/-- WOV_REKEY (R225). -/
def Reg.WOV_REKEY : Nat := 0x0500000C

/-- WOV_STATUS (R219). -/
def Reg.WOV_STATUS : Nat := 0x05000010

/-- WOV_STATUS_OCC (R219). -/
def Reg.WOV_STATUS_OCC : Nat := 0x05000014

/-- WOV_CONN_USED (R200). -/
def Reg.WOV_CONN_USED : Nat := 0x05000020

/-- WOV_WIN_USED (R208). -/
def Reg.WOV_WIN_USED : Nat := 0x05000024

/-- WOV_RC_CFG (R222). -/
def Reg.WOV_RC_CFG : Nat := 0x05080000

/-- WOV_RC_LIMITS (R222). -/
def Reg.WOV_RC_LIMITS : Nat := 0x05080004

/-- WOV_TX_PKTS (R234). -/
def Reg.WOV_TX_PKTS : Nat := 0x05100000

/-- WOV_RETX (R234). -/
def Reg.WOV_RETX : Nat := 0x05100008

/-- WOV_RX_PKTS (R234). -/
def Reg.WOV_RX_PKTS : Nat := 0x05100010

/-- WOV_RX_DUP (R234). -/
def Reg.WOV_RX_DUP : Nat := 0x05100018

/-- WOV_RX_OUT_OF_WIN (R234). -/
def Reg.WOV_RX_OUT_OF_WIN : Nat := 0x05100020

/-- WOV_RX_BAD_HDR (R234). -/
def Reg.WOV_RX_BAD_HDR : Nat := 0x05100028

/-- WOV_RX_CE (R234). -/
def Reg.WOV_RX_CE : Nat := 0x05100030

/-- WOV_NAK_TX (R234). -/
def Reg.WOV_NAK_TX : Nat := 0x05100038

/-- WOV_RTO_EXPIRED (R234). -/
def Reg.WOV_RTO_EXPIRED : Nat := 0x05100040

/-- WOV_CTX_MISS (R234). -/
def Reg.WOV_CTX_MISS : Nat := 0x05100048

/-- CPH_LANE_CFG (R238). -/
def Reg.CPH_LANE_CFG (i : Nat) : Nat := 0x06000000 + 0x10000 * i

/-- CPH_LANE_STATE (R260). -/
def Reg.CPH_LANE_STATE (i : Nat) : Nat := 0x06000004 + 0x10000 * i

/-- CPH_LANE_STATE_SPARE (R260). -/
def Reg.CPH_LANE_STATE_SPARE : Nat := 0x06080004

/-- CPH_LANE_FAULT (R260). -/
def Reg.CPH_LANE_FAULT (i : Nat) : Nat := 0x06000008 + 0x10000 * i

/-- CPH_LANE_FAULT_OCC (R260). -/
def Reg.CPH_LANE_FAULT_OCC (i : Nat) : Nat := 0x0600000C + 0x10000 * i

/-- CPH_PAIR_STATUS (R259). -/
def Reg.CPH_PAIR_STATUS (i : Nat) : Nat := 0x06000010 + 0x20000 * i

/-- LANE_BYTES (Registers). -/
def Reg.LANE_BYTES (i : Nat) : Nat := 0x06000100 + 0x10000 * i

/-- LANE_REPLAYED (Registers). -/
def Reg.LANE_REPLAYED (i : Nat) : Nat := 0x06000108 + 0x10000 * i

/-- LANE_JOBS (Registers). -/
def Reg.LANE_JOBS (i : Nat) : Nat := 0x06000110 + 0x10000 * i

/-- XFM_JOBS (Registers). -/
def Reg.XFM_JOBS (i : Nat) : Nat := 0x06100100 + 0x10000 * i

/-- XFM_IN_BYTES (Registers). -/
def Reg.XFM_IN_BYTES (i : Nat) : Nat := 0x06100108 + 0x10000 * i

/-- XFM_OUT_BYTES (Registers). -/
def Reg.XFM_OUT_BYTES (i : Nat) : Nat := 0x06100110 + 0x10000 * i

/-- CPH_PORT_CFG (R245). -/
def Reg.CPH_PORT_CFG (i : Nat) : Nat := 0x06180000 + 0x10 * i

/-- CPH_STATUS (R244). -/
def Reg.CPH_STATUS : Nat := 0x06180100

/-- CPH_STATUS_OCC (R244). -/
def Reg.CPH_STATUS_OCC : Nat := 0x06180104

/-- CPH_SA_EVENT (R244). -/
def Reg.CPH_SA_EVENT : Nat := 0x06180108

/-- CPH_SA_USED (R242). -/
def Reg.CPH_SA_USED : Nat := 0x0618010C

/-- QUIRE_STATUS (R393). -/
def Reg.QUIRE_STATUS (i : Nat) : Nat := 0x07000000 + 0x10000 * i

/-- CORE_THREADS (R394). -/
def Reg.CORE_THREADS (i : Nat) (j : Nat) : Nat := 0x07000100 + 0x10000 * i + 0x10 * j

/-- CORE_FAULT (R396). -/
def Reg.CORE_FAULT (i : Nat) (j : Nat) : Nat := 0x07000104 + 0x10000 * i + 0x10 * j

/-- CORE_FAULT_OCC (R396). -/
def Reg.CORE_FAULT_OCC (i : Nat) (j : Nat) : Nat := 0x07000108 + 0x10000 * i + 0x10 * j

/-- CORE_FALLBACK (R399). -/
def Reg.CORE_FALLBACK (i : Nat) (j : Nat) : Nat := 0x0700010C + 0x10000 * i + 0x10 * j

/-- CORE_PMU_CNT (R492). -/
def Reg.CORE_PMU_CNT (i : Nat) (j : Nat) (k : Nat) : Nat := 0x07002000 + 0x10000 * i + 0x40 * j + 8 * k

/-- MGMT_STATUS (R401). -/
def Reg.MGMT_STATUS : Nat := 0x07100000

/-- MGMT_STATUS_OCC (R401). -/
def Reg.MGMT_STATUS_OCC : Nat := 0x07100004

/-- CHN_EP_STATE (R386). -/
def Reg.CHN_EP_STATE (i : Nat) : Nat := 0x07200000 + 4 * i

/-- CHN_NOTARGET (R390). -/
def Reg.CHN_NOTARGET : Nat := 0x07208000

/-- SPM_BANK_OWNER (R407). -/
def Reg.SPM_BANK_OWNER (i : Nat) : Nat := 0x08000000 + 0x20 * i

/-- SPM_BANK_COUSER (R409). -/
def Reg.SPM_BANK_COUSER (i : Nat) : Nat := 0x08000004 + 0x20 * i

/-- SPM_BANK_STATUS (R414). -/
def Reg.SPM_BANK_STATUS (i : Nat) : Nat := 0x08000008 + 0x20 * i

/-- SPM_BANK_STATUS_OCC (R410). -/
def Reg.SPM_BANK_STATUS_OCC (i : Nat) : Nat := 0x0800000C + 0x20 * i

/-- SPM_STALL (R406). -/
def Reg.SPM_STALL (i : Nat) : Nat := 0x08004000 + 8 * i

/-- SPM_MARCH_STALL (R406). -/
def Reg.SPM_MARCH_STALL : Nat := 0x08004200

/-- SPM_MARCH_STATUS (R411). -/
def Reg.SPM_MARCH_STATUS : Nat := 0x08005000

/-- SPM_MARCH_STATUS_OCC (R411). -/
def Reg.SPM_MARCH_STATUS_OCC : Nat := 0x08005004

/-- HBM_CFG (R417). -/
def Reg.HBM_CFG (i : Nat) : Nat := 0x08100000 + 0x10000 * i

/-- HBM_STATUS (R416). -/
def Reg.HBM_STATUS (i : Nat) : Nat := 0x08100004 + 0x10000 * i

/-- HBM_STATUS_OCC (R416). -/
def Reg.HBM_STATUS_OCC (i : Nat) : Nat := 0x08100008 + 0x10000 * i

/-- HBM_LAST_ERR (R417). -/
def Reg.HBM_LAST_ERR (i : Nat) : Nat := 0x08100010 + 0x10000 * i

/-- HBM_TEMP (R419). -/
def Reg.HBM_TEMP (i : Nat) : Nat := 0x08100020 + 0x10000 * i

/-- HBM_CE_COUNT (R417). -/
def Reg.HBM_CE_COUNT (i : Nat) : Nat := 0x08100100 + 0x10000 * i

/-- HBM_UE_COUNT (R416). -/
def Reg.HBM_UE_COUNT (i : Nat) : Nat := 0x08100108 + 0x10000 * i

/-- HBM_SCRUB_PASSES (R417). -/
def Reg.HBM_SCRUB_PASSES (i : Nat) : Nat := 0x08100110 + 0x10000 * i

/-- DRY_CFG (R431). -/
def Reg.DRY_CFG : Nat := 0x09000000

/-- DRY_CAP (R427). -/
def Reg.DRY_CAP : Nat := 0x09000004

/-- DRY_STATUS (R440). -/
def Reg.DRY_STATUS : Nat := 0x09000008

/-- DRY_STATUS_OCC (R440). -/
def Reg.DRY_STATUS_OCC : Nat := 0x0900000C

/-- DRY_AVAIL (R429). -/
def Reg.DRY_AVAIL : Nat := 0x09000010

/-- DRY_RESERVED (R436). -/
def Reg.DRY_RESERVED : Nat := 0x09000014

/-- DRY_EFF_CAP (R427). -/
def Reg.DRY_EFF_CAP : Nat := 0x09000018

/-- DRY_FLOOR (R430). -/
def Reg.DRY_FLOOR : Nat := 0x0900001C

/-- DRY_DRAIN_LIMIT (R425). -/
def Reg.DRY_DRAIN_LIMIT : Nat := 0x09000020

/-- DRY_RAMP (R437). -/
def Reg.DRY_RAMP : Nat := 0x09000024

/-- DRY_E_TX (R436). -/
def Reg.DRY_E_TX : Nat := 0x09000028

/-- DRY_POWER (R428). -/
def Reg.DRY_POWER : Nat := 0x0900002C

/-- DRY_SPENT (R428). -/
def Reg.DRY_SPENT : Nat := 0x09000100

/-- DRY_ORDER_BREAK (R424). -/
def Reg.DRY_ORDER_BREAK : Nat := 0x09000108

/-- DRY_CLOSED_DROP (R424). -/
def Reg.DRY_CLOSED_DROP : Nat := 0x09000110

/-- DRY_DEFERRED (R435). -/
def Reg.DRY_DEFERRED : Nat := 0x09000118

/-- DRY_DOMAIN_CFG (R423). -/
def Reg.DRY_DOMAIN_CFG (i : Nat) : Nat := 0x09080000 + 0x10 * i

/-- DRY_DOMAIN_STATE (R422). -/
def Reg.DRY_DOMAIN_STATE (i : Nat) : Nat := 0x09080004 + 0x10 * i

/-- DRY_COST_0 (R434). -/
def Reg.DRY_COST_0 : Nat := 0x09100000

/-- DRY_COST_1 (R434). -/
def Reg.DRY_COST_1 : Nat := 0x09100004

/-- DRY_COST_2 (R434). -/
def Reg.DRY_COST_2 : Nat := 0x09100008

/-- DRY_COST_3 (R434). -/
def Reg.DRY_COST_3 : Nat := 0x0910000C

/-- DRY_COST_4 (R434). -/
def Reg.DRY_COST_4 : Nat := 0x09100010

/-- DRY_COST_5 (R434). -/
def Reg.DRY_COST_5 : Nat := 0x09100014

/-- DRY_COST_6 (R434). -/
def Reg.DRY_COST_6 : Nat := 0x09100018

/-- DRY_Q_CLASS (R433). -/
def Reg.DRY_Q_CLASS (i : Nat) : Nat := 0x09101000 + 4 * i

/-- CAL_MON (R441). -/
def Reg.CAL_MON (i : Nat) : Nat := 0x09200000 + 4 * i

/-- CAL_RAIL_CFG (R442). -/
def Reg.CAL_RAIL_CFG (i : Nat) : Nat := 0x09210000 + 0x10 * i

/-- CAL_RAIL_STATUS (R442). -/
def Reg.CAL_RAIL_STATUS (i : Nat) : Nat := 0x09210004 + 0x10 * i

/-- DRY_TEMP (R438). -/
def Reg.DRY_TEMP (i : Nat) : Nat := 0x09280000 + 4 * i

/-- PMU_SNAP (R494). -/
def Reg.PMU_SNAP : Nat := 0x0A000000

/-- PMU_IRQ (R493). -/
def Reg.PMU_IRQ : Nat := 0x0A000004

/-- TRC_TAG (R495). -/
def Reg.TRC_TAG (i : Nat) : Nat := 0x0A080000 + 4 * i

/-- TRC_CTL (R497). -/
def Reg.TRC_CTL (i : Nat) : Nat := 0x0A100000 + 0x20 * i

/-- TRC_MATCH (R500). -/
def Reg.TRC_MATCH (i : Nat) : Nat := 0x0A100004 + 0x20 * i

/-- TRC_HBM_BASE (R497). -/
def Reg.TRC_HBM_BASE (i : Nat) : Nat := 0x0A100008 + 0x20 * i

/-- TRC_SIZE (R497). -/
def Reg.TRC_SIZE (i : Nat) : Nat := 0x0A100010 + 0x20 * i

/-- TRC_WPTR (R497). -/
def Reg.TRC_WPTR (i : Nat) : Nat := 0x0A100014 + 0x20 * i

/-- TRC_STATUS (R497). -/
def Reg.TRC_STATUS (i : Nat) : Nat := 0x0A100018 + 0x20 * i

/-- TRC_STATUS_OCC (R497). -/
def Reg.TRC_STATUS_OCC (i : Nat) : Nat := 0x0A10001C + 0x20 * i

/-- TRC_LOST (R498). -/
def Reg.TRC_LOST (i : Nat) : Nat := 0x0A101000 + 8 * i

/-- DBG_CHALLENGE (R505). -/
def Reg.DBG_CHALLENGE (i : Nat) : Nat := 0x0A180000 + 4 * i

/-- DBG_STATUS (R505). -/
def Reg.DBG_STATUS : Nat := 0x0A180040

/-- DBG_RELOCK (R506). -/
def Reg.DBG_RELOCK : Nat := 0x0A180044

/-- FRZ_CFG (R507). -/
def Reg.FRZ_CFG : Nat := 0x0A200000

/-- FRZ_STATUS (R507). -/
def Reg.FRZ_STATUS : Nat := 0x0A200004

/-- BOOT_STATUS (R450). -/
def Reg.BOOT_STATUS : Nat := 0x0B000000

/-- BOOT_RESET_CAUSE (R449). -/
def Reg.BOOT_RESET_CAUSE : Nat := 0x0B000010

/-- BOOT_RESET_CAUSE_OCC (R449). -/
def Reg.BOOT_RESET_CAUSE_OCC : Nat := 0x0B000014

/-- BOOT_STRAPS (R451). -/
def Reg.BOOT_STRAPS : Nat := 0x0B000020

/-- BOOT_MINVER (R457). -/
def Reg.BOOT_MINVER (i : Nat) : Nat := 0x0B000030 + 4 * i

/-- BOOT_DEV_RESET (R447). -/
def Reg.BOOT_DEV_RESET : Nat := 0x0B000040

/-- BOOT_REC_ADDR (R452). -/
def Reg.BOOT_REC_ADDR : Nat := 0x0B100000

/-- BOOT_REC_LEN (R452). -/
def Reg.BOOT_REC_LEN : Nat := 0x0B100008

/-- BOOT_REC_GO (R452). -/
def Reg.BOOT_REC_GO : Nat := 0x0B10000C

/-- BOOT_REC_STATUS (R452). -/
def Reg.BOOT_REC_STATUS : Nat := 0x0B100010

/-- MLD_KS_STATE (R460). -/
def Reg.MLD_KS_STATE (i : Nat) : Nat := 0x0B200000 + 4 * i

/-- MLD_KS_LOCK (R461). -/
def Reg.MLD_KS_LOCK : Nat := 0x0B200100


/-! The table, one list per chapter. -/

/-- Rows of chapter 01. -/
def regRows01a : List RegRow := [
  { base := 0x00000000, rstLo := 0x320001B0 },
  { base := 0x00000004, rstLo := 0x09104028 },
  { base := 0x00000010 },
  { base := 0x00000014 },
  { base := 0x00000018, w1c := 0xE },
  { base := 0x0000001C },
  { base := 0x00000020, rwLo := 0x3FFF, rstLo := 0x64, checks := [(13, 0, [(1, 10000)])] },
  { base := 0x00000040, rwLo := 1 },
  { base := 0x00000044, w1c := 0x100 },
  { base := 0x00000048 },
  { base := 0x00000050, kind := .counter, porOnly := true }]

/-- Rows of chapter 02. -/
def regRows02a : List RegRow := [
  { base := 0x03000000, dims := [(2, 0x40000)], rwLo := 0xF, checks := [(3, 0, [(0, 8)])] },
  { base := 0x03000010, dims := [(8, 0x10000)], rwLo := 0x33FFF, rstLo := 0x2400, checks := [(13, 0, [(64, 9216)])] },
  { base := 0x03000014, dims := [(8, 0x10000)], w1c := 0xE0 },
  { base := 0x03000018, dims := [(8, 0x10000)] },
  { base := 0x03000020, dims := [(8, 0x10000)], rwLo := 0x03FF03FF, rstLo := 0x0014000A, checks := [(25, 16, [(0, 1000)]), (9, 0, [(0, 1000)])] },
  { base := 0x03000024, dims := [(8, 0x10000)], rwLo := 0xFFFF, rstLo := 0x1F4, checks := [(15, 0, [(1, 65535)])] },
  { base := 0x03000030, dims := [(8, 0x10000)], rwLo := 0x0300FFFF, checks := [(25, 24, [(0, 2)])] },
  { base := 0x03000034, dims := [(8, 0x10000)], rwLo := 0xFFFFFF, rstLo := 0x00FAC688 },
  { base := 0x03000038, dims := [(8, 0x10000)], rwLo := 0xFFFF, rstLo := 0xFFFF, checks := [(15, 0, [(2, 65535)])] },
  { base := 0x03000040, dims := [(8, 0x10000)], rwLo := 0xFFFF7FFF, rstLo := 0x00640064 },
  { base := 0x03000044, dims := [(8, 0x10000)], rwLo := 0xFFFF7FFF },
  { base := 0x03000048, dims := [(8, 0x10000)] },
  { base := 0x03000050, dims := [(8, 0x10000)], rstLo := 0x02600608 },
  { base := 0x03000054, dims := [(8, 0x10000)], rwLo := 0xFFFFF },
  { base := 0x03000058, dims := [(8, 0x10000)], rwLo := 0xFFFFF },
  { base := 0x03000400, dims := [(8, 0x10000), (2, 0x100)], rwLo := 0xFF79, rstLo := 0x0C38 },
  { base := 0x03000404, dims := [(8, 0x10000), (2, 0x100)], w1c := 1 },
  { base := 0x03000408, dims := [(8, 0x10000), (2, 0x100)] },
  { base := 0x03000410, dims := [(8, 0x10000), (2, 0x100)], rwLo := 0xFFFFFFFF, rstLo := 0x00F83000 },
  { base := 0x03001000, dims := [(8, 0x10000)], kind := .counter, porOnly := true },
  { base := 0x03001008, dims := [(8, 0x10000)], kind := .counter, porOnly := true },
  { base := 0x03001010, dims := [(8, 0x10000)], kind := .counter, porOnly := true },
  { base := 0x03001018, dims := [(8, 0x10000)], kind := .counter, porOnly := true },
  { base := 0x03001020, dims := [(8, 0x10000)], kind := .counter, porOnly := true }]

/-- Rows of chapter 02. -/
def regRows02b : List RegRow := [
  { base := 0x03001028, dims := [(8, 0x10000)], kind := .counter, porOnly := true },
  { base := 0x03001030, dims := [(8, 0x10000)], kind := .counter, porOnly := true },
  { base := 0x03001038, dims := [(8, 0x10000)], kind := .counter, porOnly := true },
  { base := 0x03001040, dims := [(8, 0x10000)], kind := .counter, porOnly := true },
  { base := 0x03001048, dims := [(8, 0x10000)], kind := .counter, porOnly := true },
  { base := 0x03001050, dims := [(8, 0x10000)], kind := .counter, porOnly := true },
  { base := 0x03001058, dims := [(8, 0x10000)], kind := .counter, porOnly := true },
  { base := 0x03001060, dims := [(8, 0x10000)], kind := .counter, porOnly := true },
  { base := 0x03001068, dims := [(8, 0x10000)], kind := .counter, porOnly := true },
  { base := 0x03001070, dims := [(8, 0x10000)], kind := .counter, porOnly := true },
  { base := 0x03001078, dims := [(8, 0x10000)], kind := .counter, porOnly := true },
  { base := 0x03001080, dims := [(8, 0x10000)], kind := .counter, porOnly := true },
  { base := 0x03001088, dims := [(8, 0x10000)], kind := .counter, porOnly := true }]

/-- Rows of chapter 03. -/
def regRows03a : List RegRow := [
  { base := 0x03080000, rwLo := 0x3FFFF, rstLo := 0x18000, checks := [(17, 0, [(16384, 180224)])] },
  { base := 0x03080004 },
  { base := 0x03080008 },
  { base := 0x03080010, w1c := 1 },
  { base := 0x03080014 },
  { base := 0x03080020, rwLo := 0xFFFFFFFF },
  { base := 0x03080030, dims := [(6, 4)], rwLo := 0x3FFFFFFF },
  { base := 0x03080048, rwLo := 0xFFF },
  { base := 0x03080100, dims := [(8, 0x20)], rwLo := 0x30007, checks := [(17, 16, [(0, 2)])] },
  { base := 0x03080104, dims := [(8, 0x20)], rwLo := 0x3FFFF, rstLo := 0xC000 },
  { base := 0x03080108, dims := [(8, 0x20)], rwLo := 0xFFFF, rstLo := 0x40 },
  { base := 0x0308010C, dims := [(8, 0x20)] },
  { base := 0x03081000, dims := [(8, 0x100), (8, 0x10)], rwLo := 0x0F00FFFF, rstLo := 0x06000028, checks := [(27, 24, [(0, 9)])] },
  { base := 0x03081004, dims := [(8, 0x100), (8, 0x10)], rwLo := 0x3FFFFFFF, rstLo := 0x40 },
  { base := 0x03081008, dims := [(8, 0x100), (8, 0x10)] },
  { base := 0x0308100C, dims := [(8, 0x100), (8, 0x10)] },
  { base := 0x03082000, dims := [(8, 0x40), (8, 0x8)], kind := .counter },
  { base := 0x03100000, dims := [(10, 0x10000)], rwLo := 3 },
  { base := 0x03100100, dims := [(10, 0x10000)], kind := .counter },
  { base := 0x03100108, dims := [(10, 0x10000)], kind := .counter },
  { base := 0x03200000 },
  { base := 0x03200004 },
  { base := 0x03200008 },
  { base := 0x03201000, dims := [(256, 8)], kind := .wide, rwLo := 0xFFFFFFFF, rwHi := 0xBFFF07FF }]

/-- Rows of chapter 04. -/
def regRows04a : List RegRow := [
  { base := 0x03100010, dims := [(8, 0x10000)] },
  { base := 0x03180010, dims := [(2, 0x10000)], rstLo := 0xF00 },
  { base := 0x03100014, dims := [(10, 0x10000)], w1c := 0xF },
  { base := 0x03100018, dims := [(10, 0x10000)] },
  { base := 0x03100020, dims := [(4, 0x20000)] },
  { base := 0x03100110, dims := [(10, 0x10000)], kind := .counter },
  { base := 0x03100118, dims := [(10, 0x10000)], kind := .counter },
  { base := 0x03100120, dims := [(10, 0x10000)], kind := .counter },
  { base := 0x03100200, dims := [(10, 0x10000), (8, 4)], rwLo := 0x83FFFFFF },
  { base := 0x03280000, dims := [(256, 4)], rwLo := 0x3F },
  { base := 0x03280800, rwLo := 0xC00FFFFF, rstLo := 0x00080000, checks := [(19, 16, [(0, 8)])] },
  { base := 0x03280810, kind := .counter, porOnly := true },
  { base := 0x03281000, dims := [(256, 8)], kind := .counter, porOnly := true }]

/-- Rows of chapter 05. -/
def regRows05a : List RegRow := [
  { base := 0x04000000, dims := [(8, 0x10000)], rwLo := 0xF0301, rstLo := 0x40000, checks := [(19, 16, [(1, 15)])] },
  { base := 0x04000004, dims := [(8, 0x10000)], w1c := 0x38 },
  { base := 0x04000008, dims := [(8, 0x10000)] },
  { base := 0x0400000C, dims := [(8, 0x10000)] },
  { base := 0x04000010, dims := [(8, 0x10000)] },
  { base := 0x04000100, dims := [(8, 0x10000), (8, 4)], rwLo := 0xE0003FFF, checks := [(13, 0, [(0, 0), (64, 9216)])] },
  { base := 0x04000200, dims := [(8, 0x10000)], rwLo := 0xF0007F0F, rstLo := 0x00000A03, checks := [(3, 0, [(1, 15)])] },
  { base := 0x04000204, dims := [(8, 0x10000)], w1c := 0x200 },
  { base := 0x04000208, dims := [(8, 0x10000)] },
  { base := 0x04000300, dims := [(8, 0x10000)], rwLo := 0x3FFFF, rstLo := 0xC000 },
  { base := 0x04000340, dims := [(8, 0x10000), (8, 8)], rwLo := 0x0F00FFFF, rstLo := 0x06000028, checks := [(27, 24, [(0, 9)])] },
  { base := 0x04000344, dims := [(8, 0x10000), (8, 8)] },
  { base := 0x04001000, dims := [(8, 0x10000)], kind := .counter, porOnly := true },
  { base := 0x04001008, dims := [(8, 0x10000)], kind := .counter, porOnly := true },
  { base := 0x04001010, dims := [(8, 0x10000)], kind := .counter, porOnly := true },
  { base := 0x04001018, dims := [(8, 0x10000)], kind := .counter, porOnly := true },
  { base := 0x04001020, dims := [(8, 0x10000)], kind := .counter, porOnly := true },
  { base := 0x04001028, dims := [(8, 0x10000)], kind := .counter, porOnly := true },
  { base := 0x04001030, dims := [(8, 0x10000)], kind := .counter, porOnly := true },
  { base := 0x04001038, dims := [(8, 0x10000)], kind := .counter, porOnly := true },
  { base := 0x04080000 },
  { base := 0x04080004 },
  { base := 0x04080010, w1c := 1 },
  { base := 0x04080014 }]

/-- Rows of chapter 05. -/
def regRows05b : List RegRow := [
  { base := 0x04100000 },
  { base := 0x04180000, dims := [(4096, 4)] }]

/-- Rows of chapter 06. -/
def regRows06a : List RegRow := [
  { base := 0x04200000, dims := [(4, 0x10000)], rwLo := 1 },
  { base := 0x04200004, dims := [(4, 0x10000)], w1c := 7 },
  { base := 0x04200008, dims := [(4, 0x10000)] },
  { base := 0x04200010, dims := [(4, 0x10000)], kind := .wide, rwLo := 0xFFFFFFFF, rwHi := 0xFF },
  { base := 0x04200020, dims := [(4, 0x10000)], kind := .wide, rwLo := 0xFFFFFFFF, rwHi := 0xFFFF },
  { base := 0x04200028, dims := [(4, 0x10000)], rwLo := 0xFFFFFFFF },
  { base := 0x0420002C, dims := [(4, 0x10000)] },
  { base := 0x04200030, dims := [(4, 0x10000)] },
  { base := 0x04200038, dims := [(4, 0x10000)], kind := .wide },
  { base := 0x04200040, dims := [(4, 0x10000)] },
  { base := 0x04200044, dims := [(4, 0x10000)] },
  { base := 0x04200048, dims := [(4, 0x10000)], kind := .wide },
  { base := 0x04280000, kind := .wide, porOnly := true },
  { base := 0x04280010, dims := [(2, 4)], rwLo := 0xF },
  { base := 0x04280020, dims := [(2, 8)], kind := .wide },
  { base := 0x04280030, w1c := 0xF },
  { base := 0x04280034 },
  { base := 0x04280040, dims := [(2, 8)], rwLo := 0xE007FFFF, rstLo := 0x3E8, checks := [(18, 0, [(1, 500000)])] },
  { base := 0x04280044, dims := [(2, 8)], rwLo := 0xFFFFF },
  { base := 0x04280050, rwLo := 0x30F, checks := [(9, 8, [(0, 2)])] },
  { base := 0x04280100, dims := [(8, 4)], rwLo := 0x303 },
  { base := 0x04300000, rwLo := 0xE33FFFFF, rstLo := 0x7D, checks := [(15, 0, [(1, 65535)])] },
  { base := 0x04300004, w1c := 0x1F },
  { base := 0x04300008 }]

/-- Rows of chapter 06. -/
def regRows06b : List RegRow := [
  { base := 0x04300010, dims := [(2, 4)] },
  { base := 0x04300020, dims := [(2, 4)] },
  { base := 0x04300028, dims := [(2, 4)], rwLo := 0xFFFFF },
  { base := 0x04300030, kind := .wide },
  { base := 0x04300040, kind := .counter }]

/-- Rows of chapter 07. -/
def regRows07a : List RegRow := [
  { base := 0x05000000, rwLo := 0xFFFF0003, rstLo := 0x19C90000 },
  { base := 0x05000004, rwLo := 0xFFFFFFFF, rstLo := 0x10080807, checks := [(31, 24, [(1, 255)]), (23, 16, [(1, 255)]), (15, 8, [(1, 255)]), (7, 0, [(1, 254)])] },
  { base := 0x05000008, rwLo := 0x7FFFFF, rstLo := 0x006003E8, checks := [(22, 20, [(0, 6)]), (19, 0, [(100, 1000000)])] },
  { base := 0x0500000C, rwLo := 0x1F, rstLo := 30, checks := [(4, 0, [(16, 30)])] },
  { base := 0x05000010, w1c := 3 },
  { base := 0x05000014 },
  { base := 0x05000020 },
  { base := 0x05000024 },
  { base := 0x05080000, rwLo := 0xFFF0FFFF, rstLo := 0x08400004, checks := [(31, 24, [(1, 255)]), (23, 20, [(0, 8)])] },
  { base := 0x05080004, rwLo := 0xFFFFFFFF, rstLo := 0x00080000 },
  { base := 0x05100000, kind := .counter, porOnly := true },
  { base := 0x05100008, kind := .counter, porOnly := true },
  { base := 0x05100010, kind := .counter, porOnly := true },
  { base := 0x05100018, kind := .counter, porOnly := true },
  { base := 0x05100020, kind := .counter, porOnly := true },
  { base := 0x05100028, kind := .counter, porOnly := true },
  { base := 0x05100030, kind := .counter, porOnly := true },
  { base := 0x05100038, kind := .counter, porOnly := true },
  { base := 0x05100040, kind := .counter, porOnly := true },
  { base := 0x05100048, kind := .counter, porOnly := true }]

/-- Rows of chapter 08. -/
def regRows08a : List RegRow := [
  { base := 0x06000000, dims := [(9, 0x10000)], rwLo := 1, rstLo := 1 },
  { base := 0x06000004, dims := [(8, 0x10000)] },
  { base := 0x06080004, rstLo := 0xF00 },
  { base := 0x06000008, dims := [(9, 0x10000)], w1c := 0xF },
  { base := 0x0600000C, dims := [(9, 0x10000)] },
  { base := 0x06000010, dims := [(4, 0x20000)] },
  { base := 0x06000100, dims := [(9, 0x10000)], kind := .counter },
  { base := 0x06000108, dims := [(9, 0x10000)], kind := .counter },
  { base := 0x06000110, dims := [(9, 0x10000)], kind := .counter },
  { base := 0x06100100, dims := [(4, 0x10000)], kind := .counter },
  { base := 0x06100108, dims := [(4, 0x10000)], kind := .counter },
  { base := 0x06100110, dims := [(4, 0x10000)], kind := .counter },
  { base := 0x06180000, dims := [(8, 0x10)], rwLo := 0xC03FFFFF },
  { base := 0x06200000, dims := [(256, 0x1000)] },
  { base := 0x06200010, dims := [(256, 0x1000)], rwLo := 0x3FFFFF },
  { base := 0x06200014, dims := [(256, 0x1000)] },
  { base := 0x06200018, dims := [(256, 0x1000)], kind := .wide },
  { base := 0x06200020, dims := [(256, 0x1000), (4, 8)], kind := .counter },
  { base := 0x06200100, dims := [(256, 0x1000), (4, 8)], kind := .counter },
  { base := 0x06180100, w1c := 7 },
  { base := 0x06180104 },
  { base := 0x06180108 },
  { base := 0x0618010C }]

/-- Rows of chapter 09. -/
def regRows09a : List RegRow := [
  { base := 0x01000000, dims := [(2, 0x100)], rstLo := 0x06000007, porOnly := true },
  { base := 0x01000004, dims := [(2, 0x100)], rwLo := 0xFF03FF07, rstLo := 0x30001001, porOnly := true, checks := [(17, 8, [(1, 1023)]), (2, 1, [(0, 2)])] },
  { base := 0x01000008, rwLo := 0x3FF, rstLo := 0xC8, porOnly := true, checks := [(9, 0, [(1, 1000)])] },
  { base := 0x01000010, dims := [(2, 0x100)], w1c := 0xF, porOnly := true },
  { base := 0x01000014, dims := [(2, 0x100)], porOnly := true },
  { base := 0x01000020, dims := [(2, 0x100)], porOnly := true },
  { base := 0x01000040, kind := .counter, porOnly := true },
  { base := 0x01000048, kind := .counter, porOnly := true },
  { base := 0x01020000, dims := [(4096, 4)] },
  { base := 0x03080110, dims := [(8, 0x20)], rwLo := 0xFFF }]

/-- Rows of chapter 10. -/
def regRows10a : List RegRow := [
  { base := 0x01040000, w1c := 1 },
  { base := 0x01040004 },
  { base := 0x01040010, kind := .counter },
  { base := 0x01040020, kind := .counter, porOnly := true },
  { base := 0x01080000, rwLo := 0x3FF, rstLo := 0x64, checks := [(9, 0, [(1, 1000)])] },
  { base := 0x01080100, kind := .counter, porOnly := true },
  { base := 0x01080108, kind := .counter, porOnly := true },
  { base := 0x01080110, kind := .counter, porOnly := true },
  { base := 0x01080118, kind := .counter, porOnly := true }]

/-- Rows of chapter 11. -/
def regRows11a : List RegRow := [
  { base := 0x02000000, dims := [(65536, 4)] },
  { base := 0x02080000, dims := [(32768, 4)] },
  { base := 0x02100000, w1c := 1 },
  { base := 0x02100004 },
  { base := 0x02100010, kind := .wide }]

/-- Rows of chapter 13. -/
def regRows13a : List RegRow := [
  { base := 0x07000000, dims := [(8, 0x10000)], rstLo := 0x00FF0000 },
  { base := 0x07000100, dims := [(8, 0x10000), (8, 0x10)] },
  { base := 0x07000104, dims := [(8, 0x10000), (8, 0x10)], w1c := 3 },
  { base := 0x07000108, dims := [(8, 0x10000), (8, 0x10)] },
  { base := 0x0700010C, dims := [(8, 0x10000), (8, 0x10)], rwLo := 0x8000003F },
  { base := 0x07100000, w1c := 1 },
  { base := 0x07100004 },
  { base := 0x07200000, dims := [(4096, 4)] },
  { base := 0x07208000, kind := .counter, porOnly := true }]

/-- Rows of chapter 14. -/
def regRows14a : List RegRow := [
  { base := 0x08000000, dims := [(256, 0x20)], rwLo := 0xE0000FFF },
  { base := 0x08000004, dims := [(256, 0x20)], rwLo := 0x803F803F },
  { base := 0x08000008, dims := [(256, 0x20)], w1c := 0xF, rstLo := 0x4800 },
  { base := 0x0800000C, dims := [(256, 0x20)] },
  { base := 0x08004000, dims := [(64, 8)], kind := .counter, porOnly := true },
  { base := 0x08004200, kind := .counter, porOnly := true },
  { base := 0x08005000, w1c := 1 },
  { base := 0x08005004 },
  { base := 0x08100000, dims := [(2, 0x10000)], rwLo := 0x1FFFF, rstLo := 0x0418, checks := [(15, 8, [(1, 255)])] },
  { base := 0x08100004, dims := [(2, 0x10000)], w1c := 7 },
  { base := 0x08100008, dims := [(2, 0x10000)] },
  { base := 0x08100010, dims := [(2, 0x10000)], kind := .wide },
  { base := 0x08100020, dims := [(2, 0x10000)] },
  { base := 0x08100100, dims := [(2, 0x10000)], kind := .counter, porOnly := true },
  { base := 0x08100108, dims := [(2, 0x10000)], kind := .counter, porOnly := true },
  { base := 0x08100110, dims := [(2, 0x10000)], kind := .counter, porOnly := true }]

/-- Rows of chapter 15. -/
def regRows15a : List RegRow := [
  { base := 0x09000000, rwLo := 0xFFFFFF03, rstLo := 0x20806402, checks := [(15, 8, [(60, 105)])] },
  { base := 0x09000004, rwLo := 0x1FF, rstLo := 300, checks := [(8, 0, [(120, 300)])] },
  { base := 0x09000008, w1c := 0x7E },
  { base := 0x0900000C },
  { base := 0x09000010 },
  { base := 0x09000014 },
  { base := 0x09000018, rstLo := 0x012C012C },
  { base := 0x0900001C },
  { base := 0x09000020, rwLo := 0x3FF, rstLo := 0x32, checks := [(9, 0, [(1, 1000)])] },
  { base := 0x09000024, rwLo := 0xFFFFFF00, rstLo := 0x050A0400, checks := [(31, 24, [(1, 40)]), (23, 16, [(0, 50)])] },
  { base := 0x09000028, rwLo := 0xFFFF, rstLo := 40 },
  { base := 0x0900002C },
  { base := 0x09000100, kind := .counter, porOnly := true },
  { base := 0x09000108, kind := .counter, porOnly := true },
  { base := 0x09000110, kind := .counter, porOnly := true },
  { base := 0x09000118, kind := .counter, porOnly := true },
  { base := 0x09080000, dims := [(29, 0x10)], rwLo := 0x80000F00 },
  { base := 0x09080004, dims := [(29, 0x10)] },
  { base := 0x09100000, rwLo := 0xFFFFFFFF, rstLo := 0x00290032 },
  { base := 0x09100004, rwLo := 0xFFFFFFFF, rstLo := 0x003200C8 },
  { base := 0x09100008, rwLo := 0xFFFFFFFF, rstLo := 0x00120064 },
  { base := 0x0910000C, rwLo := 0xFFFFFFFF, rstLo := 0x000A0032 },
  { base := 0x09100010, rwLo := 0xFFFFFFFF, rstLo := 0x00140064 },
  { base := 0x09100014, rwLo := 0xFFFFFFFF, rstLo := 0x00A400C8 }]

/-- Rows of chapter 15. -/
def regRows15b : List RegRow := [
  { base := 0x09100018, rwLo := 0xFFFFFFFF, rstLo := 0x005200C8 },
  { base := 0x09101000, dims := [(4096, 4)], rwLo := 0xFFFFFFFF, rstLo := 0xAAAAAAAA },
  { base := 0x09200000, dims := [(256, 4)], rc := 0xFF00, rstLo := 0xFF00 },
  { base := 0x09210000, dims := [(2, 0x10)], rwLo := 0xFFFFFFFF, rstLo := 0x28080C55, checks := [(7, 4, [(1, 15)]), (3, 0, [(1, 15)])] },
  { base := 0x09210004, dims := [(2, 0x10)] },
  { base := 0x09280000, dims := [(64, 4)] }]

/-- Rows of chapter 16. BOOT_REC_ADDR drops bits [11:0] of a written low word: the map calls the address 4 KiB aligned and
says nothing of another value (assumption 84, DESIGN CHOICE). -/
def regRows16a : List RegRow := [
  { base := 0x0B000000 },
  { base := 0x0B000010, w1c := 0x1F, rstLo := 1, aon := true },
  { base := 0x0B000014, rstLo := 0x00100000, aon := true },
  { base := 0x0B000020, porOnly := true },
  { base := 0x0B000030, dims := [(2, 4)] },
  { base := 0x0B000040 },
  { base := 0x0B100000, kind := .wide, rwLo := 0xFFFFF000, rwHi := 0xFFFFFFFF },
  { base := 0x0B100008, rwLo := 0x7FFFFF, checks := [(22, 0, [(4096, 4194304)])] },
  { base := 0x0B10000C },
  { base := 0x0B100010 },
  { base := 0x0B200000, dims := [(64, 4)] },
  { base := 0x0B200100 }]

/-- Rows of chapter 17. -/
def regRows17a : List RegRow := [
  { base := 0x00000080, w1c := 3 },
  { base := 0x00000084 },
  { base := 0x00000088, rstLo := 0x46 }]

/-- Rows of chapter 18. TRC_HBM_BASE drops bits [11:0] of a written low word: the map calls the base 4 KiB aligned and says
nothing of another value (assumption 84, DESIGN CHOICE). -/
def regRows18a : List RegRow := [
  { base := 0x00010000, rwLo := 0x800007FF, porOnly := true },
  { base := 0x00010004, porOnly := true },
  { base := 0x00010010, kind := .counter, porOnly := true },
  { base := 0x00011000, dims := [(4096, 4)], porOnly := true },
  { base := 0x07002000, dims := [(8, 0x10000), (8, 0x40), (8, 8)], kind := .counter },
  { base := 0x0A000000, rwLo := 2 },
  { base := 0x0A000004, rwLo := 0x800007FF },
  { base := 0x0A080000, dims := [(74, 4)], rwLo := 0x8000001F, rstLo := 16, checks := [(4, 0, [(6, 24)])] },
  { base := 0x0A100000, dims := [(74, 0x20)], rwLo := 0xEFC000FF, rstLo := 0x08000000, checks := [(27, 24, [(4, 15)]), (23, 22, [(0, 1)])] },
  { base := 0x0A100004, dims := [(74, 0x20)], rwLo := 0xFFFF },
  { base := 0x0A100008, dims := [(74, 0x20)], kind := .wide, rwLo := 0xFFFFF000, rwHi := 0xFFFFFFFF },
  { base := 0x0A100010, dims := [(74, 0x20)], rwLo := 0xFFFFF },
  { base := 0x0A100014, dims := [(74, 0x20)] },
  { base := 0x0A100018, dims := [(74, 0x20)], w1c := 5 },
  { base := 0x0A10001C, dims := [(74, 0x20)] },
  { base := 0x0A101000, dims := [(74, 8)], kind := .counter },
  { base := 0x0A180000, dims := [(12, 4)] },
  { base := 0x0A180040 },
  { base := 0x0A180044 },
  { base := 0x0A200000 },
  { base := 0x0A200004 }]

/-- Every row of the map. -/
def regRows : List RegRow :=
  regRows01a ++
  regRows02a ++
  regRows02b ++
  regRows03a ++
  regRows04a ++
  regRows05a ++
  regRows05b ++
  regRows06a ++
  regRows06b ++
  regRows07a ++
  regRows08a ++
  regRows09a ++
  regRows10a ++
  regRows11a ++
  regRows13a ++
  regRows14a ++
  regRows15a ++
  regRows15b ++
  regRows16a ++
  regRows17a ++
  regRows18a

/-! ## Units (R8 to R11, R488) -/

/-- The unit of an address: section [11:8] and unit [7:0]. -/
def unitOf (a : Nat) : Nat := a / 0x10000

/-- The offset of an address within its unit. -/
def offsetOf (a : Nat) : Nat := a % 0x10000

/-- The units that exist on the FZ3200-AX, as inclusive ranges of section and unit numbers (R10, R488 and the owning
chapters' unit tables). -/
def unitRanges : List (Nat × Nat) :=
  [(0x000, 0x001), (0x100, 0x100), (0x102, 0x102), (0x104, 0x104), (0x108, 0x108),
   (0x200, 0x203), (0x208, 0x209), (0x210, 0x210), (0x300, 0x308), (0x310, 0x319), (0x320, 0x320), (0x328, 0x328),
   (0x400, 0x408), (0x410, 0x410), (0x418, 0x418), (0x420, 0x423), (0x428, 0x428), (0x430, 0x430),
   (0x500, 0x500), (0x508, 0x508), (0x510, 0x510), (0x600, 0x608), (0x610, 0x613), (0x618, 0x618), (0x620, 0x62F),
   (0x700, 0x707), (0x710, 0x710), (0x720, 0x720), (0x800, 0x800), (0x810, 0x811),
   (0x900, 0x900), (0x908, 0x908), (0x910, 0x910), (0x920, 0x921), (0x928, 0x928),
   (0xA00, 0xA00), (0xA08, 0xA08), (0xA10, 0xA10), (0xA18, 0xA18), (0xA20, 0xA20),
   (0xB00, 0xB00), (0xB10, 0xB10), (0xB20, 0xB20)]

/-- The units of resources absent on the FZ3200-BX (R11). -/
def absentOnBx : List (Nat × Nat) := [(0x304, 0x307), (0x404, 0x407), (0x706, 0x707), (0x811, 0x811)]

/-- A number lies in one of some inclusive ranges. -/
def inRanges (rs : List (Nat × Nat)) (n : Nat) : Bool := rs.any fun r => r.1 ≤ n && n ≤ r.2

/-- The unit exists on this variant. -/
def unitPresent (v : Variant) (u : Nat) : Bool :=
  inRanges unitRanges u && !(v == .bx && inRanges absentOnBx u)

/-- The unit carries a PMU block (R489). -/
def unitHasPmu (v : Variant) (u : Nat) : Bool :=
  unitPresent v u && !inRanges [(0x200, 0x203), (0x208, 0x209), (0x620, 0x62F)] u

/-! ## Looking an address up -/

/-- The PMU block rows, at offsets of a unit (R489 to R493). -/
def pmuRows : List RegRow := [
  { base := 0xFF00, dims := [(8, 8)], rwLo := 0xE100FFFF },
  { base := 0xFF04, dims := [(8, 8)], rwLo := 0xE7000FFF, checks := [(31, 30, [(0, 2)])] },
  { base := 0xFF80, kind := .wide, rwLo := 0xFFFFFFFF, rwHi := 0xFFFFFFFF },
  { base := 0xFF88, kind := .wide, rwLo := 0xFFFFFFFF, rwHi := 0xFFFFFFFF },
  { base := 0xFFA0, w1c := 0xFF },
  { base := 0xFFA4 },
  { base := 0xFFC0, dims := [(8, 8)], kind := .counter, rwLo := 0xFFFFFFFF, rwHi := 0xFFFF }]

/-- What remains of an offset once the instance numbers of the row are taken out; `none` outside the instances. -/
def peel : List (Nat × Nat) → Nat → Option Nat
  | [], off => some off
  | (n, st) :: ds, off => if off / st < n then peel ds (off % st) else none

/-- Which word of the row an address is: 0 the only or low word, 1 the high word. -/
def rowWord (r : RegRow) (a : Nat) : Option Nat :=
  if a < r.base then none
  else match peel r.dims (a - r.base), r.kind with
    | some 0, _ => some 0
    | some 4, .wide => some 1
    | some 4, .counter => some 1
    | _, _ => none

/-- The first row of a list that holds the address, and which of its words it is. -/
def findRow : List RegRow → Nat → Option (RegRow × Nat)
  | [], _ => none
  | r :: rs, a =>
    match rowWord r a with
    | some w => some (r, w)
    | none => findRow rs a

/-- The chapters' rows that lie in a section of BAR 0 (R5); no row leaves its section. -/
def sectionRows : Nat → List RegRow
  | 0x00 => regRows01a ++ regRows17a ++ regRows18a
  | 0x01 => regRows09a ++ regRows10a
  | 0x02 => regRows11a
  | 0x03 => regRows02a ++ regRows02b ++ regRows03a ++ regRows04a ++ regRows09a
  | 0x04 => regRows05a ++ regRows05b ++ regRows06a ++ regRows06b
  | 0x05 => regRows07a
  | 0x06 => regRows08a
  | 0x07 => regRows13a ++ regRows18a
  | 0x08 => regRows14a
  | 0x09 => regRows15a ++ regRows15b
  | 0x0A => regRows18a
  | 0x0B => regRows16a
  | _ => []

/-- The headbox registers of MAC_4 to MAC_7, per port and per class, which the FZ3200-BX reserves (chapter 03, "On the
FZ3200-BX, the per-port and per-class registers of MAC_4..MAC_7 are reserved under R11"). -/
def absentHeadbox : List (Nat × Nat) :=
  [(0x03080180, 0x030801FF), (0x03081400, 0x030817FF), (0x03082100, 0x030821FF)]

/-- The address is present on this variant: its unit is, and it is no headbox register of an absent MAC (R11). -/
def addrPresent (v : Variant) (a : Nat) : Bool :=
  unitPresent v (unitOf a) && !(v == .bx && inRanges absentHeadbox a)

/-- DRY_CAP of the FZ3200-BX: the cap goes to its variant maximum, 190 W. -/
def bxDryCap : RegRow := { base := 0x09000004, rwLo := 0x1FF, rstLo := 190, checks := [(8, 0, [(120, 190)])] }

/-- The row of an address in BAR 0 on this variant, absent units reading as reserved offsets (R5, R11). -/
def rowOf (v : Variant) (a : Nat) : Option (RegRow × Nat) :=
  if !addrPresent v a then none
  else if 0xFF00 ≤ offsetOf a && unitHasPmu v (unitOf a) then findRow pmuRows (offsetOf a)
  else if v = .bx ∧ a = 0x09000004 then some (bxDryCap, 0)
  else findRow (sectionRows (a / 0x1000000)) a

/-- The inline role of a lane after its boot test: its own, none on the lanes of the absent lane group and on the spare
(R237). -/
def laneHome (v : Variant) (n : Nat) : Nat := if 8 ≤ n ∨ (v = .bx ∧ 2 ≤ n % 4) then 0xF else n

/-- The reset values that depend on the variant or the instance number: GLB_ID, GLB_CAP, DRY_CAP and DRY_EFF_CAP of
the BX; the ROLE_OF of PIPE_ROLE and CPH_LANE_STATE; the PRESENT bit of the PFs in HIF_FN_STATE. -/
def resetSpecial (v : Variant) (a : Nat) : Option Word :=
  if a = 0x4 then (if v = .bx then some 0x09083016 else none)
  else if a = 0x0 then (if v = .bx then some 0x320002B0 else none)
  else if a = 0x09000004 then (if v = .bx then some 190 else none)
  else if a = 0x09000018 then (if v = .bx then some 0x00BE00BE else none)
  else if 0x03100000 ≤ a ∧ a < 0x03180000 ∧ offsetOf a = 0x10 then some (BitVec.ofNat 32 ((unitOf a - 0x310) * 256))
  else if 0x06000000 ≤ a ∧ a < 0x06080000 ∧ offsetOf a = 4 then some (BitVec.ofNat 32 (laneHome v (unitOf a - 0x600) * 256))
  else none

/-- The value a register word has after POR_N (R446): the reset column of the maps; 0 where no register is. -/
def regReset (v : Variant) (a : Nat) : Word :=
  match resetSpecial v a with
  | some w => w
  | none =>
    match rowOf v a with
    | some (r, 0) => BitVec.ofNat 32 r.rstLo
    | some (r, _) => BitVec.ofNat 32 r.rstHi
    | none => 0

end Sys2Proof.Machine
end

