-- ==== Sys2Proof/Machine/Ops.lean ====
section
/-! DEFINITION. The shared operations: sparse tables, bit fields, register words with their reset values, the 48-bit
counters, outputs, free values, the functions of the host and their MSI-X messages, the error-log queue, and the two
combinators every meaning is written with. -/

namespace Sys2Proof.Machine

/-! ## Sparse tables -/

/-- The entry of number `k`. -/
def tget {α : Type} : Tab α → Nat → Option α
  | [], _ => none
  | (i, a) :: t, k => if i = k then some a else tget t k

/-- The entry of number `k`, or `d` where there is none. -/
def tgetD {α : Type} (t : Tab α) (k : Nat) (d : α) : α := (tget t k).getD d

/-- The table with entry `k` set, numbers kept rising. -/
def tset {α : Type} : Tab α → Nat → α → Tab α
  | [], k, a => [(k, a)]
  | (i, b) :: t, k, a =>
    if k < i then (k, a) :: (i, b) :: t
    else if k = i then (k, a) :: t
    else (i, b) :: tset t k a

/-- The table without entry `k`. -/
def terase {α : Type} (t : Tab α) (k : Nat) : Tab α := t.filter fun p => p.1 != k

/-- Change entry `k`, taking `d` where there is none. -/
def tmod {α : Type} (t : Tab α) (k : Nat) (d : α) (f : α → α) : Tab α := tset t k (f (tgetD t k d))

/-- Change every entry. -/
def tmap {α : Type} (t : Tab α) (f : Nat → α → α) : Tab α := t.map fun p => (p.1, f p.1 p.2)

/-- A map in canonical form over a default: the value at `k`. -/
def sget {α : Type} (dflt : Nat → α) (m : List (Nat × α)) (k : Nat) : α := (tget m k).getD (dflt k)

/-- A map in canonical form over a default: setting `k`, the entry left out where the value is the default. -/
def sput {α : Type} [DecidableEq α] (dflt : Nat → α) (m : List (Nat × α)) (k : Nat) (v : α) : List (Nat × α) :=
  if v = dflt k then terase m k else tset m k v

/-- The canonical form: numbers strictly rising, no entry equal to its default. -/
def swf {α : Type} [DecidableEq α] (dflt : Nat → α) (m : List (Nat × α)) : Bool :=
  (m.map Prod.fst).Pairwise (· < ·) && m.all fun p => decide (p.2 ≠ dflt p.1)

/-- Insert a number into a rising list without repeats. -/
def insNat : Nat → List Nat → List Nat
  | k, [] => [k]
  | k, i :: t => if k < i then k :: i :: t else if k = i then i :: t else i :: insNat k t

/-- The element at an index, if any, after applying `f` there. -/
def modAt {α : Type} : List α → Nat → (α → α) → List α
  | [], _, _ => []
  | a :: t, 0, f => f a :: t
  | a :: t, n + 1, f => a :: modAt t n f

/-- The least number below `n` that is not in the list. -/
def firstFree (n : Nat) (used : Nat → Bool) : Option Nat := (List.range n).find? fun i => !used i

/-! ## Bit fields -/

/-- Bits [hi:lo] of a word, as a number. -/
def bits (w : Word) (hi lo : Nat) : Nat := w.toNat / 2 ^ lo % 2 ^ (hi + 1 - lo)

/-- A word with bits [hi:lo] replaced. -/
def putBits (w : Word) (hi lo v : Nat) : Word :=
  BitVec.ofNat 32 (w.toNat - bits w hi lo * 2 ^ lo + v % 2 ^ (hi + 1 - lo) * 2 ^ lo)

/-- A two's-complement number of `n` bits as an integer. -/
def signed (n v : Nat) : Int := if 2 ^ (n - 1) ≤ v then (v : Int) - 2 ^ n else v

/-- An integer as a two's-complement number of `n` bits. -/
def toBits (n : Nat) (i : Int) : Nat := (i % (2 ^ n : Int)).toNat

/-! ## Registers -/

/-- The stored value of a register word. -/
def rd (s : State) (a : Nat) : Word := sget (regReset s.variant) s.regs a

/-- Store a register word. -/
def wr (s : State) (a : Nat) (v : Word) : State := { s with regs := sput (regReset s.variant) s.regs a v }

/-- Bits [hi:lo] of a register. -/
def fld (s : State) (a hi lo : Nat) : Nat := bits (rd s a) hi lo

/-- One bit of a register. -/
def flag (s : State) (a b : Nat) : Bool := fld s a b b == 1

/-- Store bits [hi:lo] of a register, the rest kept. -/
def setFld (s : State) (a hi lo v : Nat) : State := wr s a (putBits (rd s a) hi lo v)

/-- Store one bit of a register. -/
def setFlag (s : State) (a b : Nat) (v : Bool) : State := setFld s a b b v.toNat

/-- A two-word register as a number. -/
def rd64 (s : State) (a : Nat) : Nat := (rd s (a + 4)).toNat * 2 ^ 32 + (rd s a).toNat

/-- Store a two-word register. -/
def wr64 (s : State) (a v : Nat) : State :=
  wr (wr s a (BitVec.ofNat 32 v)) (a + 4) (BitVec.ofNat 32 (v / 2 ^ 32))

/-- Add to a 48-bit counter, modulo 2^48. -/
def count (s : State) (a : Nat) (n : Nat := 1) : State := wr64 s a ((rd64 s a + n) % 2 ^ 48)

/-! ## Outputs and free values -/

/-- Send something outside. -/
def emit (s : State) (o : Out) : State := { s with out := o :: s.out }

/-- Send several things, in order. -/
def emits (s : State) (os : List Out) : State := os.foldl emit s

/-- Take the next free value (assumption 2, DESIGN CHOICE). -/
def free (s : State) : DWord × State := (Config.freeValue s.fresh, { s with fresh := s.fresh + 1 })

/-! ## When the device runs -/

/-- The root-derived clocks run: not in POR, not held in a device reset or after a thermal trip, not FROZEN (R27,
R446, R447, R508). -/
def clocked (s : State) : Bool := s.power == .run && s.grade.cur != .frozen

/-- A command of a part that runs on the root-derived clocks: without them it has no effect; with them it changes the
state by `f`, which never touches the queue, the fused variant, the power state, DEVICE_TIME or the two memories. -/
def live (s : State) (f : State → State) : Host.Outcome State Fault Refusal :=
  if clocked s then
    let t := f s
    .next { t with pending := s.pending, variant := s.variant, power := s.power, deviceTime := s.deviceTime
                   mem := s.mem }
  else .next s

/-- As `live`, for a command that may also write the on-chip SRAM or the HBM. -/
def liveMem (s : State) (f : State → State) : Host.Outcome State Fault Refusal :=
  if clocked s then
    let t := f s
    .next { t with pending := s.pending, variant := s.variant, power := s.power, deviceTime := s.deviceTime }
  else .next s

/-- As `live`, for a command that may start a device reset: that also clears the memories (R446). -/
def liveReset (s : State) (f : State → State) : Host.Outcome State Fault Refusal :=
  if clocked s then
    let t := f s
    let kept := t.power == .run
    .next { t with pending := s.pending, variant := s.variant, deviceTime := s.deviceTime
                   power := if kept then .run else .hold
                   mem := if kept then s.mem else {} }
  else .next s

/-- A command of a part that runs without the root-derived clocks (VDD_AON, the JTAG TAP, the SMBus pins): it changes
the state by `f`, which touches neither the queue, the variant, DEVICE_TIME, the memories, the power state nor the
grade. -/
def always (s : State) (f : State → State) : Host.Outcome State Fault Refusal :=
  let t := f s
  .next { t with pending := s.pending, variant := s.variant, deviceTime := s.deviceTime, mem := s.mem,
                 power := s.power, grade := s.grade }

/-- The operands name something the device has; otherwise no such event exists. -/
def within (b : Bool) (o : Host.Outcome State Fault Refusal) : Host.Outcome State Fault Refusal :=
  if b then o else .fault .noSuchUnit

/-- MACs of the variant (R2, R11). -/
def macCount (v : Variant) : Nat := match v with | .ax => 8 | .bx => 4

/-- Quires of the variant. -/
def quireCount (v : Variant) : Nat := match v with | .ax => 8 | .bx => 6

/-- HBM stacks of the variant. -/
def hbmCount (v : Variant) : Nat := match v with | .ax => 2 | .bx => 1

/-- The code of a grade (R27). -/
def gradeCode : Grade → Nat
  | .provision => 0 | .throughput => 1 | .deterministic => 2 | .sealed => 3
  | .capped => 4 | .drain => 5 | .standby => 6 | .frozen => 7

/-- The grade of a code. -/
def gradeOf (n : Nat) : Grade :=
  match n with
  | 0 => .provision | 1 => .throughput | 2 => .deterministic | 3 => .sealed
  | 4 => .capped | 5 => .drain | 6 => .standby | _ => .frozen

/-- Grades 1 to 4, the working grades. -/
def working (g : Grade) : Bool := 1 ≤ gradeCode g && gradeCode g ≤ 4

/-! ## Functions -/

/-- A function's record. -/
def fnOf (s : State) (fid : Nat) : Fn := tgetD s.host.fns fid {}

/-- Change a function's record. -/
def modFn (s : State) (fid : Nat) (f : Fn → Fn) : State :=
  { s with host := { s.host with fns := tmod s.host.fns fid {} f } }

/-- MSI-X table size of a function (R272). -/
def msixSize (fid : Nat) : Nat := if fid < 8 then 2048 else 256

/-- The quota of a function before any FN_QUOTA_SET (R317). -/
def quotaReset (fid code : Nat) : Nat :=
  if code = 3 then msixSize fid else if code = 11 then 1 else 0

/-- The quota of a function for a resource code (R317). -/
def quotaOf (s : State) (fid code : Nat) : Nat := sget (quotaReset fid) (fnOf s fid).quota code

/-- VF_BASE_n (R270), from TotalVFs, which are the VF quotas (R271). -/
def vfBase (s : State) (n : Nat) : Nat := 8 + ((List.range n).map fun k => quotaOf s k 0).sum

/-- The PF a VF's FID belongs to, by the FID ranges of R270. -/
def pfOf (s : State) (fid : Nat) : Nat :=
  if fid < 8 then fid
  else ((List.range 8).find? fun n => vfBase s n ≤ fid && fid < vfBase s n + quotaOf s n 0).getD 8

/-- The VF index of a FID, counting from 1 (R270). -/
def vfIndex (s : State) (fid : Nat) : Nat := fid + 1 - vfBase s (pfOf s fid)

/-- The function exists: a PF, or a VF that VF Enable and NumVFs of its PF cover (HIF_FN_STATE.PRESENT). -/
def fnPresent (s : State) (fid : Nat) : Bool :=
  fid < 8 ||
  (let p := pfOf s fid
   p < 8 && (fnOf s p).vfEnable && vfIndex s fid ≤ (fnOf s p).numVfs)

/-- The link that carries a function (R269). -/
def linkOf (s : State) (fid : Nat) : Nat := if s.host.split && 4 ≤ pfOf s fid then 1 else 0

/-- A link's record. -/
def linkRec (s : State) (k : Nat) : Link := tgetD s.host.links k {}

/-- Change a link's record. -/
def modLink (s : State) (k : Nat) (f : Link → Link) : State :=
  { s with host := { s.host with links := tmod s.host.links k {} f } }

/-- The device may issue a request for the function now (R281, R286, R288, R294). -/
def canRequest (s : State) (fid : Nat) : Bool :=
  let f := fnOf s fid
  f.bme && !f.d3hot && !f.flr && fnPresent s fid && !(linkRec s (linkOf s fid)).lost && !s.host.perstLow

/-- The conditions of R296 for a vector hold. -/
def msixReady (s : State) (fid vec : Nat) : Bool :=
  let f := fnOf s fid
  f.msixEn && !f.msixMask && !(tgetD f.vecs vec {}).masked && canRequest s fid

/-- Signal a vector of a function (R296): send the message, or make it pending; a vector beyond the quota or the table
is never signalled. -/
def signal (s : State) (fid vec : Nat) : State :=
  if !(fnPresent s fid) || msixSize fid ≤ vec || quotaOf s fid 3 ≤ vec then s
  else if msixReady s fid vec then emit s (.msix fid vec)
  else modFn s fid fun f => { f with vecs := tmod f.vecs vec {} fun v => { v with pend := true } }

/-- Send every pending vector of a function whose conditions hold again (R296). -/
def msixFlush (s : State) (fid : Nat) : State :=
  (fnOf s fid).vecs.foldl (fun s p =>
    if p.2.pend && msixReady s fid p.1 && p.1 < quotaOf s fid 3 then
      emit (modFn s fid fun f => { f with vecs := tmod f.vecs p.1 {} fun v => { v with pend := false } })
        (.msix fid p.1)
    else s) s

/-! ## Freeze triggers and performance counters -/

/-- Raise a freeze trigger, the bits of R507: 0 PIN, 1 PMU_OVF, 2 ERRLOG, 3 LOCKSTEP, 4 CORE_FAULT, 5 a grade request.
Each of the first five counts only while its mask bit is set, and none while the freeze is not armed. -/
def raiseTrig (s : State) (b : Nat) : State :=
  if s.obs.armed && (b == 5 || flag s (Reg.FRZ_CFG) b) then
    { s with obs := { s.obs with trig := s.obs.trig ||| 2 ^ b } }
  else s

/-- The PMU block of a unit (R489), and one of its counters. -/
def pmuBlock (unit : Nat) : Nat := unit * 0x10000 + 0xFF00
def pmuEvsel (unit i : Nat) : Nat := pmuBlock unit + 8 * i
def pmuCnt (unit i : Nat) : Nat := pmuBlock unit + 0xC0 + 8 * i

/-- A counter has wrapped to 0 (R493): its PMU_OVF bit, and the interrupt and the trigger where they are configured. -/
def pmuWrap (s : State) (unit i : Nat) : State :=
  let a := pmuBlock unit + 0xA0
  let s := setFlag s a i true
  let s := setFld s (a + 4) (4 * i + 3) (4 * i) (fld s (a + 4) (4 * i + 3) (4 * i) + 1)
  let s := if flag s (pmuEvsel unit i) 29 && flag s (Reg.PMU_IRQ) 31 then signal s 0 (fld s (Reg.PMU_IRQ) 10 0) else s
  if flag s (pmuEvsel unit i) 30 then raiseTrig s 1 else s

/-- A counter counts an event of a function at an address, where the event has them (R490, R491). -/
def pmuCounts (s : State) (unit i ev : Nat) (fid addr : Option Nat) : Bool :=
  let e := rd s (pmuEvsel unit i)
  let f := rd s (pmuEvsel unit i + 4)
  bits e 31 31 == 1 &&
  (if bits e 24 24 = 1 then bits e 15 12 == ev / 4096 else bits e 15 0 == ev) &&
  (bits f 31 30 == 0 || (bits f 31 30 == 1 && fid == some (bits f 11 0))) &&
  (bits f 29 29 == 0 || (match addr with
    | some a => rd64 s (pmuBlock unit + 0x80) ≤ a && a < rd64 s (pmuBlock unit + 0x88)
    | none => false)) &&
  bits f 26 24 == 0

/-- `n` events of a unit happen (R490): every counter of its block that counts them goes up by `n`, modulo 2^48. -/
def pmuEvent (s : State) (unit ev : Nat) (n : Nat := 1) (fid addr : Option Nat := none) : State :=
  (List.range 8).foldl (fun s i =>
    if pmuCounts s unit i ev fid addr then
      let v := rd64 s (pmuCnt unit i) + n
      let s := wr64 s (pmuCnt unit i) (v % 2 ^ 48)
      if 2 ^ 48 ≤ v then pmuWrap s unit i else s
    else s) s

/-- Pages of a dirty log that a write of `len` bytes at `iova` touches (R313). -/
def dirtyPages (d : DirtyLog) (iova len : Nat) : List Nat :=
  if len = 0 then [] else
  (List.range ((iova + len - 1) / 4096 - iova / 4096 + 1)).filterMap fun k =>
    let p := iova / 4096 + k
    if d.base / 4096 ≤ p && p < (d.base + d.length) / 4096 then some (p - d.base / 4096) else none

/-- Log one write in the function's dirty log (R313), and count the writes that fall outside the range. -/
def dirtyMark (s : State) (fid iova len : Nat) : State :=
  match (fnOf s fid).dirty with
  | none => s
  | some d =>
    let ps := dirtyPages d iova len
    let new := ps.filter fun p => !d.bits.contains p
    let s := modFn s fid fun f => { f with dirty := some { d with
      bits := new.foldl (fun l p => insNat p l) d.bits
      changed := new.foldl (fun l p => insNat (p / 64) l) d.changed } }
    if ps.isEmpty then count s (Reg.FN_DIRTY_OUTSIDE) else s

/-- The 64-bit word `w` of a dirty bitmap (R314), little-endian. -/
def dirtyWord (d : DirtyLog) (w : Nat) : List Byte :=
  (List.range 8).map fun b =>
    BitVec.ofNat 8 (((List.range 8).map fun k => if d.bits.contains (64 * w + 8 * b + k) then 2 ^ k else 0).sum)

/-- Issue one changed bitmap word, in PF 0's address space (R312, R314). -/
def dirtyIssue (s : State) (fid w : Nat) : State :=
  match (fnOf s fid).dirty with
  | none => s
  | some d =>
    if d.changed.contains w then
      emit (modFn s fid fun f => { f with dirty := some { d with changed := d.changed.filter (· != w) } })
        (.hostWrite 0 none (d.bitmap + 8 * w) (dirtyWord d w))
    else s

/-- Issue every changed bitmap word of a function (R314, R315, R316). -/
def dirtyFlush (s : State) (fid : Nat) : State :=
  match (fnOf s fid).dirty with
  | none => s
  | some d => d.changed.foldl (fun s w => dirtyIssue s fid w) s

/-- The translations the cache holds at most, and its page sizes (R307). -/
def dtuSizes : List Nat := [4096, 2097152, 1073741824]

/-- A cached translation serves an access (R307). -/
def dtuServes (e : DtuEntry) (fid : Nat) (pasid : Option Nat) (iova : Nat) : Bool :=
  e.fid == fid && e.pasid == pasid && e.iova ≤ iova && iova < e.iova + e.size

/-- An access of a function goes through the translation cache (R308): with ATS Enable a hit, or a miss that fetches a
translation of a size the host chooses, for which a full cache gives one up; without it nothing is cached. -/
def dtuTouch (s : State) (fid : Nat) (pasid : Option Nat) (iova : Nat) : State :=
  if !(fnOf s fid).ats then s
  else if s.host.dtu.any fun e => dtuServes e fid pasid iova then
    count (pmuEvent s 0x108 0x5400 1 (some fid) (some iova)) (Reg.DTU_HIT)
  else
    let (v, s) := free s
    let size := (dtuSizes[v.toNat % 3]?).getD 4096
    let old := if s.host.dtu.length < 16384 then s.host.dtu else s.host.dtu.eraseIdx (v.toNat / 3 % s.host.dtu.length)
    let s := pmuEvent s 0x108 0x5401 1 (some fid) (some iova)
    let s := emit (count s (Reg.DTU_MISS)) (.pcie "ATS_TRANSLATION_REQUEST" fid iova)
    { s with host := { s.host with dtu := old ++ [⟨fid, pasid, iova / size * size, size⟩] } }

/-- A memory write the device issues for a function (R313): nothing while the function may issue no request. -/
def hostWrite (s : State) (fid : Nat) (pasid : Option Nat) (iova : Nat) (data : List Byte) : State :=
  if canRequest s fid then
    dirtyMark (emit (dtuTouch s fid pasid iova) (.hostWrite fid pasid iova data)) fid iova data.length
  else s

/-! ## Error log -/

/-- Send an event to the error log (R502): it enters the input queue, or is counted as dropped when that holds 16. -/
def logErr (s : State) (code cls unit : Nat) (details : List Nat) (fid : Nat := 0xFFFF) : State :=
  if 16 ≤ s.obs.errQ.length then count s (Reg.GLB_ERR_DROPPED)
  else { s with obs := { s.obs with errQ := s.obs.errQ ++ [{
    code := code, cls := cls, unit := unit, fid := fid, time := s.deviceTime
    details := (List.range 5).map fun i => BitVec.ofNat 64 (details.getD i 0) }] } }

/-! ## Joryen channels -/

/-- A channel's record. -/
def chanOf (s : State) (pf : Nat) : Channel := tgetD s.chans pf {}

/-- Change a channel's record. -/
def modChan (s : State) (pf : Nat) (f : Channel → Channel) : State :=
  { s with chans := tmod s.chans pf {} f }

end Sys2Proof.Machine
end

