-- ==== Sys2Proof/Machine/Operands.lean ====
section
/-! DEFINITION. Operand forms: byte strings as numbers in either byte order, bit strings of a frame, the parameter
slots of a Joryen command (R364), full and short times (R178), and the two cyclic codes the device computes. -/

namespace Sys2Proof.Machine

/-! ## Bytes and numbers -/

/-- Little-endian number of a byte string. -/
def leNat : List Byte → Nat
  | [] => 0
  | b :: t => b.toNat + 256 * leNat t

/-- Big-endian number of a byte string. -/
def beNat (bs : List Byte) : Nat := bs.foldl (fun n b => n * 256 + b.toNat) 0

/-- `n` little-endian bytes of a number. -/
def toLe : Nat → Nat → List Byte
  | 0, _ => []
  | n + 1, v => BitVec.ofNat 8 v :: toLe n (v / 256)

/-- `n` big-endian bytes of a number. -/
def toBe (n v : Nat) : List Byte := (toLe n v).reverse

/-- `n` bytes of a string from an offset. -/
def slice (bs : List Byte) (off n : Nat) : List Byte := (bs.drop off).take n

/-- Little-endian field of a byte string: offset and length. -/
def leAt (bs : List Byte) (off n : Nat) : Nat := leNat (slice bs off n)

/-- Big-endian field of a byte string. -/
def beAt (bs : List Byte) (off n : Nat) : Nat := beNat (slice bs off n)

/-- Some byte of a range is not 0. -/
def nonZero (bs : List Byte) (off n : Nat) : Bool := (slice bs off n).any (· != 0)

/-- `w` bits of a byte string from bit offset `b`, most significant bit of byte 0 first; none where they run past the
end (R90). -/
def bitsAt (bs : List Byte) (b w : Nat) : Option Nat :=
  if 8 * bs.length < b + w then none
  else
    let first := b / 8
    let n := (b + w + 7) / 8 - first
    some (beAt bs first n / 2 ^ (8 * n - (b - 8 * first) - w) % 2 ^ w)

/-- Bits [hi:lo] of a number. -/
def nbits (v hi lo : Nat) : Nat := v / 2 ^ lo % 2 ^ (hi + 1 - lo)

/-! ## Parameter slots (R364) -/

/-- Scalar slot `i`, little-endian. -/
def slot (p : List Byte) (i : Nat) : Nat := leAt p (8 * i) 8

/-- A MAC or IPv4 address in slot `i`: network byte order, right-aligned. -/
def slotBe (p : List Byte) (i : Nat) : Nat := beAt p (8 * i) 8

/-- An item of `n` bytes from slot `i`, network byte order. -/
def slotBytes (p : List Byte) (i n : Nat) : List Byte := slice p (8 * i) n

/-- The encoding of "none". -/
def noneSlot : Nat := 2 ^ 64 - 1

/-- A slot that may be "none". -/
def slotOpt (p : List Byte) (i : Nat) : Option Nat := if slot p i = noneSlot then none else some (slot p i)

/-! ## Times (R178) -/

/-- 10^9. -/
def giga : Nat := 1000000000

/-- A full time in two slots (12 bytes: seconds 6, nanoseconds 4, fraction 2, network byte order) as a count of
2^-16 ns. -/
def fullTime (bs : List Byte) : Nat := ((beAt bs 0 6) * giga + beAt bs 6 4) * 65536 + beAt bs 10 2

/-- The nanoseconds of an encoded full time. -/
def fullTimeNs (bs : List Byte) : Nat := beAt bs 6 4

/-- Seconds, nanoseconds and fraction of a count of 2^-16 ns. -/
def timeSec (t : Nat) : Nat := t / 65536 / giga % 2 ^ 48
def timeNs (t : Nat) : Nat := t / 65536 % giga
def timeFrac (t : Nat) : Nat := t % 65536

/-- The 12 bytes of a full time, network byte order. -/
def fullTimeBytes (t : Nat) : List Byte := toBe 6 (timeSec t) ++ toBe 4 (timeNs t) ++ toBe 2 (timeFrac t)

/-- A full time in reply detail words (R514). -/
def timeDetails (t : Nat) : List Word :=
  [BitVec.ofNat 32 (timeSec t), BitVec.ofNat 32 (timeSec t / 2 ^ 32 + timeFrac t * 2 ^ 16), BitVec.ofNat 32 (timeNs t)]

/-- The short time of a count of 2^-16 ns: nanoseconds modulo 2^48 (R178). -/
def shortTime (t : Nat) : Nat := t / 65536 % 2 ^ 48

/-- The signed difference of two short times (R179). -/
def shortDiff (a b : Nat) : Int := signed 48 (toBits 48 ((a : Int) - b))

/-! ## Cyclic codes -/

/-- One bit of a reflected CRC-32. -/
def crcBit (poly c : Nat) : Nat := if c % 2 = 1 then (c / 2) ^^^ poly else c / 2

/-- A reflected CRC-32 of a byte string with initial value and final inversion all ones. -/
def crc32 (poly : Nat) (bs : List Byte) : Nat :=
  (bs.foldl (fun c b =>
    crcBit poly (crcBit poly (crcBit poly (crcBit poly (crcBit poly (crcBit poly (crcBit poly (crcBit poly
      (c ^^^ b.toNat))))))))) 0xFFFFFFFF) ^^^ 0xFFFFFFFF

/-- CRC-32C (R187, R264), least significant byte first on the wire. -/
def crc32c (bs : List Byte) : Nat := crc32 0x82F63B78 bs

/-- The Ethernet frame check sequence (IEEE 802.3), as its four bytes on the wire. -/
def fcs (bs : List Byte) : List Byte := toLe 4 (crc32 0xEDB88320 bs)

/-- A frame from bytes without FCS: padded to 64 bytes with its FCS (R337). -/
def withFcs (bs : List Byte) : List Byte :=
  let p := bs ++ List.replicate (60 - bs.length) 0
  p ++ fcs p

/-- A frame without its FCS. -/
def dropFcs (bs : List Byte) : List Byte := bs.take (bs.length - 4)

/-- Ceiling division. -/
def ceilDiv (a b : Nat) : Nat := (a + b - 1) / b

/-- Integer division rounding to minus infinity by a positive number. -/
def floorDiv (a : Int) (b : Nat) : Int := a / (b : Int)

end Sys2Proof.Machine
end

