-- ==== Sys2Proof/Machine/Crypto.lean ====
section
/-! DEFINITION. The ciphers and the hash that the spec takes from its standards (R236, R240, R462; assumption 106,
PRESUMED): AES (FIPS 197), GCM (SP 800-38D), XTS (IEEE 1619), ChaCha20-Poly1305 (RFC 8439), key wrap with padding (RFC
5649), SHA-384 (FIPS 180-4) and HKDF (RFC 5869). -/

namespace Sys2Proof.Machine

/-! ## AES -/

/-- The S-box and its inverse, entry `i` in bits [8i+7:8i]. -/
def aesSbox : Nat :=
  0x16bb54b00f2d99416842e6bf0d89a18cdf2855cee9871e9b948ed9691198f8e19e1dc186b95735610ef6034866b53e708a8bbd4b1f74dde8c6b4a61c2e2578ba08ae7a65eaf4566ca94ed58d6d37c8e779e4959162acd3c25c2406490a3a32e0db0b5ede14b8ee4688902a22dc4f816073195d643d7ea7c41744975fec130ccdd2f3ff1021dab6bcf5389d928f40a351a89f3c507f02f94585334d43fbaaefd0cf584c4a39becb6a5bb1fc20ed00d153842fe329b3d63b52a05a6e1b1a2c830975b227ebe28012079a059618c323c7041531d871f1e5a534ccf73f362693fdb7c072a49cafa2d4adf04759fa7dc982ca76abd7fe2b670130c56f6bf27b777c63
def aesSboxInv : Nat :=
  0x7d0c2155631469e126d677ba7e042b17619953833cbbebc8b0f52aae4d3be0a0ef9cc9939f7ae52d0d4ab519a97f51605fec8027591012b131c7078833a8dd1ff45acd78fec0db9a2079d2c64b3e56fc1bbe18aa0e62b76f89c5291d711af1476edf751ce837f9e28535ade72274ac9673e6b4f0cecff297eadc674f4111913a6b8a130103bdafc1020f3fca8f1e2cd00645b3b80558e4f70ad3bc8c00abd890849d8da75746155edab9edfd5048706c92b6655dcc5ca4d41698688664f6f87225d18b6d49a25b76b224d92866a12e084ec3fa420b954cee3d23c2a632947b54cbe9dec444438e3487ff2f9b8239e37cfbd7f3819ea340bf38a53630d56a0952

/-- Entry `x` of a table of bytes. -/
def byteOf (table x : Nat) : Nat := table / 2 ^ (8 * x) % 256

/-- The product in AES's field. -/
def aesMul (a b : Nat) : Nat :=
  ((List.range 8).foldl (fun (p : Nat × Nat) i =>
    (if b / 2 ^ i % 2 = 1 then p.1 ^^^ p.2 else p.1, if p.2 < 128 then p.2 * 2 else (p.2 * 2) ^^^ 0x11B)) (0, a)).1

/-- SubWord of a 32-bit word. -/
def subWord (w : Nat) : Nat :=
  ((List.range 4).map fun i => byteOf aesSbox (byteOf w i) * 2 ^ (8 * i)).sum

/-- `n` more words of a key schedule, of key length `nk`, numbered from `i`; the words so far, latest first. -/
def aesWords (nk : Nat) : Nat → Nat → Nat → List Nat → List Nat
  | 0, _, _, ws => ws
  | n + 1, i, rc, ws =>
    let t := ws.headD 0
    let t' := if i % nk = 0 then subWord (t * 256 % 2 ^ 32 + t / 2 ^ 24) ^^^ (rc * 2 ^ 24)
      else if 6 < nk ∧ i % nk = 4 then subWord t else t
    aesWords nk n (i + 1) (if i % nk = 0 then aesMul rc 2 else rc) ((ws.getD (nk - 1) 0 ^^^ t') :: ws)

/-- The 32-bit words of a key, in order. -/
def keyWords : Nat → List Byte → List Nat
  | 0, _ => []
  | n + 1, k => beAt k 0 4 :: keyWords n (k.drop 4)

/-- The bytes of a number of 16 bytes, first byte first, as AES numbers its state. -/
def block16 (v : Nat) : List Nat := (List.range 16).map fun i => v / 2 ^ (120 - 8 * i) % 256
def unblock (b : List Nat) : Nat := b.foldl (fun n x => n * 256 + x) 0

/-- The round keys of a key of 16 or 32 bytes, in order. -/
def aesKeys (key : List Byte) : List (List Nat) :=
  let nk := key.length / 4
  let ws := (aesWords nk (4 * (nk + 7) - nk) nk 1 (keyWords nk key).reverse).reverse
  (List.range (nk + 7)).map fun r => block16 (((ws.drop (4 * r)).take 4).foldl (fun n w => n * 2 ^ 32 + w) 0)

/-- One column of MixColumns with the coefficients of a row. -/
def mixCol (m : List Nat) (c : List Nat) : List Nat :=
  (List.range 4).map fun r => (List.range 4).foldl (fun x i => x ^^^ aesMul (c.getD i 0) (m.getD ((i + 4 - r) % 4) 0)) 0

def mixCols (m : List Nat) (b : List Nat) : List Nat :=
  (List.range 4).flatMap fun c => mixCol m ((b.drop (4 * c)).take 4)

def xorBytes (a b : List Nat) : List Nat := a.zipWith (· ^^^ ·) b

/-- SubBytes then ShiftRows, and their inverse. -/
def subShift (b : List Nat) : List Nat := (List.range 16).map fun i => byteOf aesSbox (b.getD ((i + 4 * (i % 4)) % 16) 0)
def unsubShift (b : List Nat) : List Nat := (List.range 16).map fun i => byteOf aesSboxInv (b.getD ((i + 12 * (i % 4)) % 16) 0)

/-- The rounds of AES on a state, and of its inverse. -/
def aesRounds : List (List Nat) → List Nat → List Nat
  | [], b => b
  | [k], b => xorBytes (subShift b) k
  | k :: ks, b => aesRounds ks (xorBytes (mixCols [2, 3, 1, 1] (subShift b)) k)
def aesUnrounds : List (List Nat) → List Nat → List Nat
  | [], b => b
  | [k], b => xorBytes (unsubShift b) k
  | k :: ks, b => aesUnrounds ks (mixCols [14, 11, 13, 9] (xorBytes (unsubShift b) k))

/-- AES of one block, a number of 128 bits, under round keys; and its inverse. -/
def aesEnc (ks : List (List Nat)) (v : Nat) : Nat :=
  match ks with
  | [] => v
  | k :: rs => unblock (aesRounds rs (xorBytes (block16 v) k))
def aesDec (ks : List (List Nat)) (v : Nat) : Nat :=
  match ks.reverse with
  | [] => v
  | k :: rs => unblock (aesUnrounds rs (xorBytes (block16 v) k))

/-! ## GCM -/

/-- The product of two blocks in GCM's field. -/
def gcmMul (x y : Nat) : Nat :=
  ((List.range 128).foldl (fun (p : Nat × Nat) i =>
    (if x / 2 ^ (127 - i) % 2 = 1 then p.1 ^^^ p.2 else p.1,
     if p.2 % 2 = 1 then p.2 / 2 ^^^ (0xE1 * 2 ^ 120) else p.2 / 2)) (0, y)).1

/-- The first `n` blocks of a byte string as numbers, the last padded with zeros. -/
def blocksOf : Nat → List Byte → List Nat
  | 0, _ => []
  | n + 1, b =>
    let x := b.take 16
    beNat x * 256 ^ (16 - x.length) :: blocksOf n (b.drop 16)

/-- All blocks of a byte string. -/
def allBlocks (b : List Byte) : List Nat := blocksOf ((b.length + 15) / 16) b

/-- Counter mode from a first counter block: the 32-bit counter in its low bits rises by one a block. -/
def gcmCtr (ks : List (List Nat)) (j : Nat) (b : List Byte) : List Byte :=
  let stream := (List.range ((b.length + 15) / 16)).flatMap fun i =>
    toBe 16 (aesEnc ks (j / 2 ^ 32 * 2 ^ 32 + (j + i) % 2 ^ 32))
  b.zipWith (· ^^^ ·) stream

/-- The tag over associated data and ciphertext; `j` is the pre-counter block. -/
def gcmTag (ks : List (List Nat)) (j : Nat) (aad ct : List Byte) : List Byte :=
  let h := aesEnc ks 0
  let y := (allBlocks aad ++ allBlocks ct ++ [8 * aad.length * 2 ^ 64 + 8 * ct.length]).foldl (fun y x => gcmMul (y ^^^ x) h) 0
  toBe 16 (y ^^^ aesEnc ks j)

/-- The pre-counter block of a nonce of 12 bytes. -/
def gcmJ0 (nonce : List Byte) : Nat := beAt nonce 0 12 * 2 ^ 32 + 1

/-! ## ChaCha20-Poly1305 -/

def add32 (a b : Nat) : Nat := (a + b) % 2 ^ 32
def rotl32 (v n : Nat) : Nat := v * 2 ^ n % 2 ^ 32 + v / 2 ^ (32 - n)

/-- A quarter round on words a, b, c and d of a state of 16 words. -/
def chachaQuarter (st : List Nat) (a b c d : Nat) : List Nat :=
  let g := fun i => st.getD i 0
  let a1 := add32 (g a) (g b)
  let d1 := rotl32 (g d ^^^ a1) 16
  let c1 := add32 (g c) d1
  let b1 := rotl32 (g b ^^^ c1) 12
  let a2 := add32 a1 b1
  let d2 := rotl32 (d1 ^^^ a2) 8
  let c2 := add32 c1 d2
  let b2 := rotl32 (b1 ^^^ c2) 7
  (((st.set a a2).set b b2).set c c2).set d d2

/-- Two rounds: columns, then diagonals. -/
def chachaDouble (st : List Nat) : List Nat :=
  [(0, 4, 8, 12), (1, 5, 9, 13), (2, 6, 10, 14), (3, 7, 11, 15),
   (0, 5, 10, 15), (1, 6, 11, 12), (2, 7, 8, 13), (3, 4, 9, 14)].foldl
    (fun s (q : Nat × Nat × Nat × Nat) => chachaQuarter s q.1 q.2.1 q.2.2.1 q.2.2.2) st

/-- The key stream block of a counter. -/
def chachaBlock (key nonce : List Byte) (ctr : Nat) : List Byte :=
  let st := [0x61707865, 0x3320646E, 0x79622D32, 0x6B206574] ++ ((List.range 8).map fun i => leAt key (4 * i) 4) ++
    [ctr % 2 ^ 32] ++ ((List.range 3).map fun i => leAt nonce (4 * i) 4)
  let r := (List.range 10).foldl (fun s _ => chachaDouble s) st
  (r.zipWith add32 st).flatMap (toLe 4)

/-- ChaCha20 from counter 1. -/
def chacha (key nonce b : List Byte) : List Byte :=
  b.zipWith (· ^^^ ·) ((List.range ((b.length + 63) / 64)).flatMap fun i => chachaBlock key nonce (i + 1))

/-- The chunks of 16 bytes of a byte string. -/
def chunks16 : Nat → List Byte → List (List Byte)
  | 0, _ => []
  | n + 1, b => b.take 16 :: chunks16 n (b.drop 16)

/-- A byte string padded with zeros to a multiple of 16. -/
def pad16 (b : List Byte) : List Byte := b ++ List.replicate ((16 - b.length % 16) % 16) 0

/-- The tag of ChaCha20-Poly1305 over associated data and ciphertext. -/
def polyTag (key nonce aad ct : List Byte) : List Byte :=
  let otk := chachaBlock key nonce 0
  let r := leAt otk 0 16 &&& 0x0FFFFFFC0FFFFFFC0FFFFFFC0FFFFFFF
  let m := pad16 aad ++ pad16 ct ++ toLe 8 aad.length ++ toLe 8 ct.length
  let acc := (chunks16 ((m.length + 15) / 16) m).foldl
    (fun a c => (a + leNat c + 256 ^ c.length) * r % (2 ^ 130 - 5)) 0
  toLe 16 (acc + leAt otk 16 16)

/-! ## The algorithms of R236 -/

/-- The stream cipher of an AEAD algorithm, which is its own inverse. -/
def aeadStream (alg : Nat) (key nonce b : List Byte) : List Byte :=
  if alg = 2 then chacha key nonce b else gcmCtr (aesKeys key) (gcmJ0 nonce + 1) b

/-- Its tag of 16 bytes. -/
def aeadTag (alg : Nat) (key nonce aad ct : List Byte) : List Byte :=
  if alg = 2 then polyTag key nonce aad ct else gcmTag (aesKeys key) (gcmJ0 nonce) aad ct

/-- Authenticated encryption of ALG 0, 1 or 2 (R236): ciphertext and tag. -/
@[irreducible] def aeadSeal (alg : Nat) (key nonce aad pt : List Byte) : List Byte × List Byte :=
  let ct := aeadStream alg key nonce pt
  (ct, aeadTag alg key nonce aad ct)

/-- Its inverse: the plaintext, or none where the tag does not verify. -/
@[irreducible] def aeadOpen (alg : Nat) (key nonce aad ct tag : List Byte) : Option (List Byte) :=
  if aeadTag alg key nonce aad ct = tag then some (aeadStream alg key nonce ct) else none

/-- The tweaks of `n` blocks of a data unit, from the first on: each the one before times the field's generator, bytes
little-endian. -/
def xtsTweaks : Nat → Nat → List Nat
  | 0, _ => []
  | n + 1, t => t :: xtsTweaks n (if t < 2 ^ 127 then t * 2 else t * 2 % 2 ^ 128 ^^^ 0x87)

/-- XTS of one data unit of whole blocks (R236): key 1 then key 2. -/
@[irreducible] def xtsUnit (dec : Bool) (key : List Byte) (unit : Nat) (b : List Byte) : List Byte :=
  let h := key.length / 2
  let ks := aesKeys (key.take h)
  let t0 := leNat (toBe 16 (aesEnc (aesKeys (key.drop h)) (beNat (toLe 16 unit))))
  let bs := chunks16 (b.length / 16) b
  (bs.zip (xtsTweaks bs.length t0)).flatMap fun (c, t) =>
    let x := beNat (toLe 16 (leNat c ^^^ t))
    toLe 16 (leNat (toBe 16 (if dec then aesDec ks x else aesEnc ks x)) ^^^ t)

/-! ## Key wrap with padding (RFC 5649) -/

/-- The 6n steps of RFC 3394 on the register A and the semiblocks. -/
def wrapSteps (ks : List (List Nat)) (n : Nat) : List Nat → Nat × List Nat → Nat × List Nat
  | [], x => x
  | t :: ts, (a, r) =>
    let i := t % n
    let b := aesEnc ks (a * 2 ^ 64 + r.getD i 0)
    wrapSteps ks n ts (b / 2 ^ 64 ^^^ (t + 1), r.set i (b % 2 ^ 64))
def unwrapSteps (ks : List (List Nat)) (n : Nat) : List Nat → Nat × List Nat → Nat × List Nat
  | [], x => x
  | t :: ts, (a, r) =>
    let i := t % n
    let b := aesDec ks ((a ^^^ (t + 1)) * 2 ^ 64 + r.getD i 0)
    unwrapSteps ks n ts (b / 2 ^ 64, r.set i (b % 2 ^ 64))

/-- The semiblocks of a byte string. -/
def semis : Nat → List Byte → List Nat
  | 0, _ => []
  | n + 1, b => beAt b 0 8 :: semis n (b.drop 8)

/-- AES-256 key wrap with padding of a key. -/
@[irreducible] def keyWrap (kek key : List Byte) : List Byte :=
  let ks := aesKeys (kek.take 32)
  let n := (key.length + 7) / 8
  let aiv := 0xA65959A6 * 2 ^ 32 + key.length
  let r := semis n (key ++ List.replicate (8 * n - key.length) 0)
  if n = 1 then toBe 16 (aesEnc ks (aiv * 2 ^ 64 + r.headD 0))
  else
    let (a, r) := wrapSteps ks n (List.range (6 * n)) (aiv, r)
    (a :: r).flatMap (toBe 8)

/-- Its inverse: none where the integrity check fails. -/
@[irreducible] def keyUnwrap (kek wrapped : List Byte) : Option (List Byte) :=
  let ks := aesKeys (kek.take 32)
  let n := wrapped.length / 8 - 1
  let w := semis (n + 1) wrapped
  let (a, r) := if n = 1 then
      let v := aesDec ks (beAt wrapped 0 16)
      (v / 2 ^ 64, [v % 2 ^ 64])
    else unwrapSteps ks n (List.range (6 * n)).reverse (w.headD 0, w.drop 1)
  let len := a % 2 ^ 32
  let b := r.flatMap (toBe 8)
  if wrapped.length % 8 = 0 ∧ 1 ≤ n ∧ a / 2 ^ 32 = 0xA65959A6 ∧ 8 * (n - 1) < len ∧ len ≤ 8 * n ∧ (b.drop len).all (· == 0) then
    some (b.take len)
  else none

/-! ## SHA-384 and HKDF -/

/-- The round constants, in order. -/
def shaK1 : List Nat := [
  0x428a2f98d728ae22, 0x7137449123ef65cd, 0xb5c0fbcfec4d3b2f, 0xe9b5dba58189dbbc, 0x3956c25bf348b538, 0x59f111f1b605d019,
  0x923f82a4af194f9b, 0xab1c5ed5da6d8118, 0xd807aa98a3030242, 0x12835b0145706fbe, 0x243185be4ee4b28c, 0x550c7dc3d5ffb4e2,
  0x72be5d74f27b896f, 0x80deb1fe3b1696b1, 0x9bdc06a725c71235, 0xc19bf174cf692694, 0xe49b69c19ef14ad2, 0xefbe4786384f25e3,
  0x0fc19dc68b8cd5b5, 0x240ca1cc77ac9c65, 0x2de92c6f592b0275, 0x4a7484aa6ea6e483, 0x5cb0a9dcbd41fbd4, 0x76f988da831153b5,
  0x983e5152ee66dfab, 0xa831c66d2db43210, 0xb00327c898fb213f, 0xbf597fc7beef0ee4, 0xc6e00bf33da88fc2, 0xd5a79147930aa725,
  0x06ca6351e003826f, 0x142929670a0e6e70, 0x27b70a8546d22ffc, 0x2e1b21385c26c926, 0x4d2c6dfc5ac42aed, 0x53380d139d95b3df,
  0x650a73548baf63de, 0x766a0abb3c77b2a8, 0x81c2c92e47edaee6, 0x92722c851482353b]
def shaK2 : List Nat := [
  0xa2bfe8a14cf10364, 0xa81a664bbc423001, 0xc24b8b70d0f89791, 0xc76c51a30654be30, 0xd192e819d6ef5218, 0xd69906245565a910,
  0xf40e35855771202a, 0x106aa07032bbd1b8, 0x19a4c116b8d2d0c8, 0x1e376c085141ab53, 0x2748774cdf8eeb99, 0x34b0bcb5e19b48a8,
  0x391c0cb3c5c95a63, 0x4ed8aa4ae3418acb, 0x5b9cca4f7763e373, 0x682e6ff3d6b2b8a3, 0x748f82ee5defb2fc, 0x78a5636f43172f60,
  0x84c87814a1f0ab72, 0x8cc702081a6439ec, 0x90befffa23631e28, 0xa4506cebde82bde9, 0xbef9a3f7b2c67915, 0xc67178f2e372532b,
  0xca273eceea26619c, 0xd186b8c721c0c207, 0xeada7dd6cde0eb1e, 0xf57d4f7fee6ed178, 0x06f067aa72176fba, 0x0a637dc5a2c898a6,
  0x113f9804bef90dae, 0x1b710b35131c471b, 0x28db77f523047d84, 0x32caab7b40c72493, 0x3c9ebe0a15c9bebc, 0x431d67c49c100d4c,
  0x4cc5d4becb3e42b6, 0x597f299cfc657e2a, 0x5fcb6fab3ad6faec, 0x6c44198c4a475817]

def rotr64 (v n : Nat) : Nat := v / 2 ^ n + v * 2 ^ (64 - n) % 2 ^ 64

/-- `n` more words of a message schedule, the words so far latest first. -/
def shaWords : Nat → List Nat → List Nat
  | 0, ws => ws
  | n + 1, ws =>
    let w := fun i => ws.getD (i - 1) 0
    let s0 := rotr64 (w 15) 1 ^^^ rotr64 (w 15) 8 ^^^ (w 15 / 2 ^ 7)
    let s1 := rotr64 (w 2) 19 ^^^ rotr64 (w 2) 61 ^^^ (w 2 / 2 ^ 6)
    shaWords n ((w 16 + s0 + w 7 + s1) % 2 ^ 64 :: ws)

/-- One round on the working variables a to h, with constant plus word. -/
def shaRound (v : List Nat) (kw : Nat) : List Nat :=
  match v with
  | [a, b, c, d, e, f, g, h] =>
    let t1 := h + (rotr64 e 14 ^^^ rotr64 e 18 ^^^ rotr64 e 41) + ((e &&& f) ^^^ ((2 ^ 64 - 1 - e) &&& g)) + kw
    let t2 := (rotr64 a 28 ^^^ rotr64 a 34 ^^^ rotr64 a 39) + ((a &&& b) ^^^ (a &&& c) ^^^ (b &&& c))
    [(t1 + t2) % 2 ^ 64, a, b, c, (d + t1) % 2 ^ 64, e, f, g]
  | v => v

/-- One block of 128 bytes. -/
def shaBlock (h : List Nat) (b : List Byte) : List Nat :=
  let ws := (shaWords 64 (semis 16 b).reverse).reverse
  (h.zipWith (· + ·) ((ws.zipWith (· + ·) (shaK1 ++ shaK2)).foldl shaRound h)).map (· % 2 ^ 64)

/-- The blocks of a message. -/
def shaBlocks : Nat → List Byte → List Nat → List Nat
  | 0, _, h => h
  | n + 1, b, h => shaBlocks n (b.drop 128) (shaBlock h (b.take 128))

/-- SHA-384 of a message. -/
@[irreducible] def sha384 (msg : List Byte) : List Byte :=
  let z := (239 - msg.length % 128) % 128
  let m := msg ++ [0x80] ++ List.replicate z 0 ++ toBe 16 (8 * msg.length)
  ((shaBlocks (m.length / 128) m [0xcbbb9d5dc1059ed8, 0x629a292a367cd507, 0x9159015a3070dd17, 0x152fecd8f70e5939,
    0x67332667ffc00b31, 0x8eb44a8768581511, 0xdb0c2e0d64f98fa7, 0x47b5481dbefa4fa4]).take 6).flatMap (toBe 8)

/-- HMAC-SHA-384 under a key. -/
def hmac384 (key msg : List Byte) : List Byte :=
  let k := if 128 < key.length then sha384 key else key
  let k := k ++ List.replicate (128 - k.length) 0
  sha384 (k.map (· ^^^ 0x5C) ++ sha384 (k.map (· ^^^ 0x36) ++ msg))

/-- The output blocks of HKDF from number `i` on, with the block before. -/
def hkdfBlocks (prk info : List Byte) : Nat → Nat → List Byte → List Byte
  | 0, _, _ => []
  | n + 1, i, prev =>
    let t := hmac384 prk (prev ++ info ++ toBe 1 i)
    t ++ hkdfBlocks prk info n (i + 1) t

/-- HKDF-SHA-384 of a key, without a salt, for some information and an output length. -/
@[irreducible] def hkdf (key info : List Byte) (len : Nat) : List Byte :=
  (hkdfBlocks (hmac384 [] key) info ((len + 47) / 48) 1 []).take len

end Sys2Proof.Machine
end

