-- ==== Sys2Proof/Machine/Flags.lean ====
section
/-! DEFINITION. Status flags: hardware sets of W1C fields with their occurrence counters (R24, R25), and the one
place that says which field of an `_OCC` register counts which bit. -/

namespace Sys2Proof.Machine

/-- Hardware sets bit `b` of the W1C register at `a`; field [hi:lo] of the companion at `a + 4` counts it, modulo its
width, even while the bit is already 1 (R25). -/
def hwSet (s : State) (a b hi lo : Nat) : State :=
  let s := setFlag s a b true
  setFld s (a + 4) hi lo (fld s (a + 4) hi lo + 1)

end Sys2Proof.Machine
end

