-- ==== Sys2Proof/Machine/Joryen.lean ====
section
/-! DEFINITION. The frame every Joryen command runs in: header and reply layout (R362, R363), the opcode table (R373),
permission (R301), sealing (R322, R366) and the check order (R365). A command's own checks and effect are a handler,
given in the file of the chapter that owns it. -/

namespace Sys2Proof.Machine

/-! ## Status codes (R372) -/

def stOk : Nat := 0x0000
def stBusy : Nat := 0x0001
def stBadOpcode : Nat := 0x0002
def stDenied : Nat := 0x0003
def stBadParam : Nat := 0x0004
def stNoResource : Nat := 0x0005
def stAborted : Nat := 0x0006
def stWrongGrade : Nat := 0x0007
def stVerifyFailed : Nat := 0x0008
def stTimeout : Nat := 0x0009
def stInternal : Nat := 0x000A
def stPartial : Nat := 0x000B

/-! ## Header (R362) -/

/-- What a handler is given: the issuing PF, whether the command came on the FW_CTRL ring, the target FID, the
capacity of the output buffer and the parameters. -/
structure Ctx where
  pf : Nat
  ring : Bool
  target : Nat
  outLen : Nat
  params : List Byte
  deriving DecidableEq, Repr

/-- How a handler answers: with the command's whole outcome, or with work that an event of the command completes
later; `committed` says whether the commit point has passed by then. -/
inductive CmdRes where
  | finish (r : Reply) (s : State)
  | wait (committed : Bool) (s : State)

/-- The grades an opcode is accepted in (R373): A PROVISION to STANDBY, W PROVISION to DRAIN, P PROVISION only. -/
inductive OpGrades where
  | anyGrade | untilDrain | provisionOnly
  deriving DecidableEq, Repr

/-- What an opcode may name (R301, R366): a function and its objects; device-wide objects, PF 0 only; or nothing that
is not granted to every PF. -/
inductive OpScope where
  | function | deviceWide | everyPf
  deriving DecidableEq, Repr

/-- A row of the opcode tables (R373). -/
structure OpRow where
  code : Nat
  scope : OpScope
  grades : OpGrades := .anyGrade
  ring : Bool := true
  deriving DecidableEq, Repr

/-- Opcodes of groups 0x00 to 0x03. -/
def opRowsA : List OpRow := [
  ⟨0x0000, .everyPf, .anyGrade, true⟩, ⟨0x0001, .everyPf, .anyGrade, true⟩, ⟨0x0002, .deviceWide, .anyGrade, false⟩,
  ⟨0x0003, .deviceWide, .anyGrade, false⟩, ⟨0x0004, .deviceWide, .anyGrade, true⟩,
  ⟨0x0100, .function, .anyGrade, true⟩, ⟨0x0101, .function, .anyGrade, true⟩, ⟨0x0102, .function, .anyGrade, true⟩,
  ⟨0x0103, .function, .anyGrade, true⟩, ⟨0x0104, .function, .anyGrade, true⟩, ⟨0x0105, .function, .anyGrade, true⟩,
  ⟨0x0106, .function, .anyGrade, true⟩,
  ⟨0x0200, .function, .anyGrade, true⟩, ⟨0x0201, .function, .anyGrade, true⟩, ⟨0x0202, .function, .anyGrade, true⟩,
  ⟨0x0203, .function, .anyGrade, true⟩, ⟨0x0204, .function, .anyGrade, true⟩, ⟨0x0205, .function, .anyGrade, true⟩,
  ⟨0x0206, .function, .anyGrade, true⟩]

/-- Opcodes of group 0x03. -/
def opRowsB : List OpRow := [
  ⟨0x0300, .deviceWide, .anyGrade, true⟩, ⟨0x0301, .deviceWide, .anyGrade, true⟩, ⟨0x0302, .deviceWide, .anyGrade, false⟩,
  ⟨0x0303, .deviceWide, .anyGrade, true⟩, ⟨0x0304, .deviceWide, .anyGrade, true⟩, ⟨0x0305, .deviceWide, .anyGrade, true⟩,
  ⟨0x0306, .deviceWide, .anyGrade, true⟩, ⟨0x0307, .deviceWide, .anyGrade, true⟩, ⟨0x0308, .deviceWide, .anyGrade, true⟩,
  ⟨0x0309, .deviceWide, .anyGrade, true⟩, ⟨0x030A, .deviceWide, .anyGrade, true⟩, ⟨0x030B, .deviceWide, .anyGrade, true⟩,
  ⟨0x030C, .deviceWide, .anyGrade, true⟩, ⟨0x030D, .function, .anyGrade, true⟩, ⟨0x030E, .function, .anyGrade, true⟩,
  ⟨0x030F, .deviceWide, .anyGrade, true⟩, ⟨0x0320, .deviceWide, .untilDrain, false⟩,
  ⟨0x0321, .deviceWide, .untilDrain, false⟩, ⟨0x0322, .deviceWide, .untilDrain, false⟩,
  ⟨0x0323, .deviceWide, .untilDrain, false⟩]

/-- Opcodes of groups 0x04 to 0x06. -/
def opRowsC : List OpRow := [
  ⟨0x0400, .deviceWide, .anyGrade, true⟩, ⟨0x0401, .deviceWide, .anyGrade, true⟩, ⟨0x0402, .deviceWide, .anyGrade, true⟩,
  ⟨0x0408, .deviceWide, .anyGrade, true⟩, ⟨0x0409, .deviceWide, .anyGrade, true⟩, ⟨0x040A, .deviceWide, .anyGrade, true⟩,
  ⟨0x0410, .function, .anyGrade, true⟩, ⟨0x0411, .function, .anyGrade, true⟩, ⟨0x0418, .deviceWide, .anyGrade, true⟩,
  ⟨0x0419, .deviceWide, .anyGrade, true⟩, ⟨0x041A, .deviceWide, .anyGrade, true⟩, ⟨0x041B, .everyPf, .anyGrade, true⟩,
  ⟨0x0420, .deviceWide, .anyGrade, true⟩,
  ⟨0x0500, .function, .anyGrade, true⟩, ⟨0x0501, .function, .anyGrade, true⟩, ⟨0x0502, .function, .anyGrade, true⟩,
  ⟨0x0503, .function, .anyGrade, true⟩, ⟨0x0508, .function, .anyGrade, true⟩, ⟨0x0509, .function, .anyGrade, true⟩,
  ⟨0x0600, .function, .anyGrade, true⟩, ⟨0x0601, .function, .anyGrade, true⟩, ⟨0x0602, .function, .anyGrade, true⟩,
  ⟨0x0608, .deviceWide, .untilDrain, false⟩, ⟨0x0609, .deviceWide, .untilDrain, false⟩,
  ⟨0x060A, .deviceWide, .untilDrain, false⟩, ⟨0x060B, .deviceWide, .untilDrain, false⟩]

/-- Opcodes of groups 0x07 to 0x0B. -/
def opRowsD : List OpRow := [
  ⟨0x0700, .deviceWide, .anyGrade, true⟩, ⟨0x0701, .deviceWide, .untilDrain, false⟩,
  ⟨0x0702, .deviceWide, .anyGrade, false⟩, ⟨0x0703, .deviceWide, .anyGrade, true⟩,
  ⟨0x0800, .deviceWide, .anyGrade, false⟩, ⟨0x0801, .deviceWide, .anyGrade, true⟩,
  ⟨0x0808, .deviceWide, .anyGrade, false⟩, ⟨0x0809, .deviceWide, .untilDrain, false⟩,
  ⟨0x080A, .deviceWide, .anyGrade, true⟩, ⟨0x0900, .deviceWide, .anyGrade, false⟩,
  ⟨0x0901, .deviceWide, .anyGrade, false⟩, ⟨0x0902, .deviceWide, .anyGrade, true⟩,
  ⟨0x0A00, .deviceWide, .anyGrade, true⟩, ⟨0x0A01, .deviceWide, .anyGrade, false⟩, ⟨0x0A02, .deviceWide, .anyGrade, true⟩,
  ⟨0x0A03, .deviceWide, .anyGrade, false⟩, ⟨0x0A04, .deviceWide, .anyGrade, false⟩,
  ⟨0x0A05, .deviceWide, .anyGrade, false⟩, ⟨0x0B00, .deviceWide, .anyGrade, false⟩,
  ⟨0x0B01, .deviceWide, .provisionOnly, false⟩, ⟨0x0B02, .deviceWide, .anyGrade, false⟩,
  ⟨0x0B03, .deviceWide, .provisionOnly, false⟩, ⟨0x0B04, .deviceWide, .anyGrade, true⟩]

/-- The opcode tables of R373. -/
def opRows : List OpRow := opRowsA ++ opRowsB ++ opRowsC ++ opRowsD

/-- The row of an opcode. -/
def opRow (code : Nat) : Option OpRow := opRows.find? fun r => r.code == code

/-- Header fields (R362). -/
def hdrOpcode (h : List Byte) : Nat := leAt h 0 2
def hdrTag (h : List Byte) : Nat := leAt h 4 2
def hdrTarget (h : List Byte) : Nat := leAt h 6 2 % 4096
def hdrParamLen (h : List Byte) : Nat := leAt h 8 4
def hdrOutLen (h : List Byte) : Nat := leAt h 12 4

/-- The offset of the first header field outside R362 (R365 step 2). -/
def hdrBad (ring : Bool) (h : List Byte) : Option Nat :=
  if leAt h 2 1 ≠ 1 then some 2
  else if leAt h 3 1 ≠ 0 then some 3
  else if 4096 ≤ leAt h 6 2 then some 6
  else if 4096 < hdrParamLen h then some 8
  else if 1048576 < hdrOutLen h then some 12
  else if leAt h 16 8 % 8 ≠ 0 ∨ (ring ∧ leAt h 16 8 ≠ 0) then some 16
  else if hdrOutLen h ≠ 0 ∧ leAt h 24 8 % 8 ≠ 0 then some 24
  else if nonZero h 32 32 then some 32
  else none

/-- A refusal: its status and DETAIL_0. -/
def refuse (st : Nat) (d0 : Nat := 0) : Reply := { status := st, details := [BitVec.ofNat 32 d0] }

/-- A parameter out of range, by the byte offset of the parameter (R365 step 5). -/
def badParam (off : Nat) : Reply := refuse stBadParam off

/-- The grade code in force, or the refusal of an opcode outside its grades (R365 step 4). -/
def gradeAllows (g : OpGrades) (cur : Grade) : Bool :=
  match g with
  | .anyGrade => gradeCode cur ≤ 6
  | .untilDrain => gradeCode cur ≤ 5
  | .provisionOnly => gradeCode cur == 0

/-- The issuer may name the function (R301): PF 0 any that exists; a network PF itself and its own VFs. -/
def mayName (s : State) (pf fid : Nat) : Bool :=
  fnPresent s fid && (pf == 0 || fid == pf || (8 ≤ fid && pfOf s fid == pf))

/-- Count a refusal under R321 (R327). -/
def denied (s : State) : Reply × State := (refuse stDenied, count s (Reg.FN_DENIED))

/-- The command is sealed (R322, R366). `objOwn` says that every object the parameters name belongs to the issuer. -/
def sealedBy (row : Option OpRow) (pf target : Nat) (objOwn : Bool) : Bool :=
  match row with
  | none => target != pf
  | some r =>
    match r.scope with
    | .everyPf => false
    | .deviceWide => pf != 0
    | .function => target != pf || !objOwn

/-- The description of one opcode's own checks and effect: whether PARAM_LEN agrees with R364, whether the objects
named exist and may be named (R365 step 3), whether they belong to the issuer (R322), and the handler for the rest. -/
structure OpBody where
  lenOk : List Byte → Bool
  objs : Ctx → State → Bool := fun _ _ => true
  own : Ctx → State → Bool := fun _ _ => true
  run : Ctx → State → CmdRes

/-- Steps 2 to 6 of R365 on an accepted command whose opcode is known, then its handler. -/
def runChecks (row : OpRow) (b : OpBody) (c : Ctx) (h : List Byte) (read : Option (List Byte)) (s : State) : CmdRes :=
  match hdrBad c.ring h with
  | some off => .finish (refuse stBadParam (0x1000 + off)) s
  | none =>
    match read with
    | none => .finish (refuse stBadParam 0xFFFFFFFF) s
    | some p =>
      if p.length ≠ hdrParamLen h ∨ !(b.lenOk p) then .finish (refuse stBadParam 0x1008) s
      else
        let permitted :=
          match row.scope with
          | .everyPf => true
          | .deviceWide => c.pf == 0
          | .function => mayName s c.pf c.target
        if !permitted || !(b.objs c s) then
          let (r, s) := denied s
          .finish r s
        else if !(gradeAllows row.grades s.grade.cur) then
          .finish (refuse stWrongGrade (gradeCode s.grade.cur)) s
        else b.run c s

/-- The context of a header and its parameters. -/
def ctxOf (pf : Nat) (ring : Bool) (h : List Byte) (read : Option (List Byte)) : Ctx :=
  { pf := pf, ring := ring, target := hdrTarget h, outLen := hdrOutLen h, params := read.getD [] }

/-- Carry out the command that runs in channel `pf`, if it has the opcode and its checks have not run yet. The status
is settled by R365; the reply then waits for its release (R363, R322). -/
def chanRun (code : Nat) (b : OpBody) (pf : Nat) (buf : ParamBuf) (s : State) : State :=
  match (chanOf s pf).cmd, opRow code with
  | some cmd, some row =>
    if hdrOpcode cmd.hdr = code ∧ cmd.phase = .accepted then
      let read := if hdrParamLen cmd.hdr = 0 then some [] else buf
      let c := ctxOf pf false cmd.hdr read
      let isSealed := sealedBy (some row) pf c.target (read.isNone || !(b.lenOk c.params) || b.own c s)
      let late := (chanOf s pf).aborting
      match runChecks row b c cmd.hdr read s with
      | .finish r t =>
        modChan t pf fun ch => { ch with cmd := some { cmd with
          phase := .settled r, isSealed := isSealed, late := late
          committed := r.status == stOk || r.committed } }
      | .wait committed t =>
        modChan t pf fun ch => { ch with cmd := some { cmd with
          phase := .working, isSealed := isSealed, late := late, committed := committed } }
    else s
  | _, _ => s

/-- Carry out a message of the FW_CTRL ring (R353): the issuer is PF 0. No reply yet where the command waits. -/
def ringRun (code : Nat) (b : OpBody) (h : List Byte) (params : List Byte) (s : State) : Option Reply × State :=
  match opRow code with
  | none => (some (refuse stBadOpcode), s)
  | some row =>
    match runChecks row b (ctxOf 0 true h (some params)) h (some params) s with
    | .finish r t => (some r, t)
    | .wait _ t => (none, t)

/-- The meaning of a row of the table that is a Joryen opcode: PF `pf` exists, and the device runs. -/
def joryen (code : Nat) (b : OpBody) (pf : Nat) (buf : ParamBuf) (s : State) :
    Host.Outcome State Fault Refusal :=
  within (pf < 8) (live s (chanRun code b pf buf))

/-- As `joryen`, for an opcode that writes the on-chip memory or the HBM. -/
def joryenMem (code : Nat) (b : OpBody) (pf : Nat) (buf : ParamBuf) (s : State) :
    Host.Outcome State Fault Refusal :=
  within (pf < 8) (liveMem s (chanRun code b pf buf))

/-- The reply of a granted command. -/
def ok (details : List Word := []) (out : List Byte := []) : Reply :=
  { status := stOk, details := details, out := out }

/-- A granted command's result. -/
def grant (s : State) (details : List Word := []) (out : List Byte := []) : CmdRes := .finish (ok details out) s

/-- A command without parameters. -/
def noParams (p : List Byte) : Bool := p.isEmpty

/-- A command of exactly `n` slots. -/
def slots (n : Nat) (p : List Byte) : Bool := p.length == 8 * n

/-- `n` slots, then `cnt` elements of `size` bytes, where slot `i` gives the count. -/
def slotsThen (n i size : Nat) (p : List Byte) : Bool :=
  8 * n ≤ p.length && p.length == 8 * n + size * slot p i

/-- A function object by its local index belongs to the target; it belongs to the issuer when the target is. -/
def ownTarget (c : Ctx) : Bool := c.target == c.pf

/-- Settle the working command of channel `pf` with opcode `code` (its event has come). -/
def settle (s : State) (pf code : Nat) (r : Reply) : State :=
  match (chanOf s pf).cmd with
  | some cmd =>
    if hdrOpcode cmd.hdr = code ∧ cmd.phase = .working then
      modChan s pf fun ch => { ch with cmd := some { cmd with phase := .settled r, committed := true } }
    else s
  | none => s

/-- Settle the working command of that opcode in whichever channel runs it (PF 0 alone may issue the long ones). -/
def settleAny (s : State) (code : Nat) (r : Reply) : State :=
  (List.range 8).foldl (fun s pf => settle s pf code r) s

end Sys2Proof.Machine
end

