-- ==== Sys2Proof/Machine/Clock.lean ====
section
/-! DEFINITION. DEVICE_TIME, captures and the PHC model (R168 to R174). Times of a PHC are counts of 2^-16 ns; a
capture is a count of 1/16 ns. -/

namespace Sys2Proof.Machine

/-- The PHC model. -/
def phcOf (s : State) (n : Nat) : Phc := tgetD s.time.phcs n {}

/-- Change a PHC model. -/
def modPhc (s : State) (n : Nat) (f : Phc → Phc) : State :=
  { s with time := { s.time with phcs := tmod s.time.phcs n {} f } }

/-- The value of a model at capture `c`, from its BASE, ANCHOR and RATE (R170). -/
def phcEval (base anchor : Nat) (rate : Int) (c : Nat) : Nat :=
  (base + floorDiv (((c : Int) - anchor) * (2 ^ 48 + rate)) (2 ^ 36)).toNat

/-- The value at capture `c` by the first of some models, newest first, that was in force then: a model is from its
ANCHOR on, the oldest one always. -/
def phcBy (base anchor : Nat) (rate : Int) : List (Nat × Nat × Int) → Nat → Nat
  | [], c => phcEval base anchor rate c
  | (b, a, r) :: older, c => if anchor ≤ c then phcEval base anchor rate c else phcBy b a r older c

/-- The value of PHC n at capture `c`, by the model in force at the capture's own tick (R173). -/
def phcAt (s : State) (n c : Nat) : Nat :=
  let p := phcOf s n
  phcBy p.base p.anchor p.rate p.old c

/-- The capture value of the present tick. -/
def nowC (s : State) : Nat := 8 * s.deviceTime.toNat

/-- The value of PHC n at the present tick. -/
def phcNow (s : State) (n : Nat) : Nat := phcAt s n (nowC s)

/-- The earliest capture at which PHC n is at least `t` (R174). -/
def phcInv (s : State) (n t : Nat) : Nat :=
  let p := phcOf s n
  if t ≤ p.base then p.anchor
  else p.anchor + ceilDiv ((t - p.base) * 2 ^ 36) (2 ^ 48 + p.rate).toNat

/-- The commit tick of a model change: the first tick after the present one (R172, R175). -/
def commitC (s : State) : Nat := 8 * (s.deviceTime.toNat + 1)

/-- Change the model at the next tick: new BASE at that tick and RATE, the models before it kept for captures ahead of
it; a model that was to begin at that same tick never comes into force. -/
def phcSet (s : State) (n base : Nat) (rate : Int) : State :=
  modPhc s n fun p => { base := base, anchor := commitC s, rate := rate
                        old := if p.anchor = commitC s then p.old else (p.base, p.anchor, p.rate) :: p.old }

/-- A capture as the device takes it (R169): no earlier than the last one of that port and direction, and no later than
the present tick with the 0.25 ns a capture may be out (assumption 87, DEDUCED). -/
def captureOf (s : State) (last cap : Nat) : Nat := max last (min cap (nowC s + 11))

/-- Half a nanosecond, and one nanosecond, in 2^-16 ns. -/
def halfNs : Nat := 32768
def oneNs : Nat := 65536

end Sys2Proof.Machine
end

