-- ==== Sys2Proof/Machine/Windows.lean ====
section
/-! DEFINITION. Ports and their schedule: shapes and rates (R40, R41), wire times, the gate segments of the deckle
lists in absolute PHC time (R137, R139), guard bands (R147), and the window a frame is bound to (R149). -/

namespace Sys2Proof.Machine

/-! ## Domains and lanes -/

/-- A power domain is OPEN (R422). -/
def domOpen (s : State) (d : Nat) : Bool := fld s (Reg.DRY_DOMAIN_STATE d) 2 0 == 0

/-- STATE of a cipher lane, and the register that shows it. -/
def laneReg (n : Nat) : Nat := if n < 8 then Reg.CPH_LANE_STATE n else Reg.CPH_LANE_STATE_SPARE
def laneState (s : State) (n : Nat) : Nat := fld s (laneReg n) 2 0

/-- The lanes that take look-aside jobs: LA_EN set, in service, and their domain OPEN (R238, R424). -/
def jobLanes (s : State) : List Nat :=
  (List.range 9).filter fun n =>
    flag s (Reg.CPH_LANE_CFG n) 0 && (laneState s n == 2 || laneState s n == 3) && domOpen s (8 + n)

/-- The engines that take transform jobs: their domain is OPEN (R263, R424). -/
def jobEngines (s : State) : List Nat := (List.range 4).filter fun n => domOpen s (17 + n)

/-! ## Ports -/

/-- A port's record. -/
def portOf (s : State) (mac : Nat) : Port := tgetD s.pkt.ports mac {}

/-- Change a port's record. -/
def modPort (s : State) (mac : Nat) (f : Port → Port) : State :=
  { s with pkt := { s.pkt with ports := tmod s.pkt.ports mac {} f } }

/-- A class queue of a port. -/
def queueOf (p : Port) (c : Nat) : List TxFrame := tgetD p.queues c []

/-- The lane group of a MAC. -/
def groupOf (mac : Nat) : Nat := mac / 4

/-- The shape of a lane group. -/
def shapeOf (s : State) (lg : Nat) : Nat := fld s (Reg.MAC_LG_CFG lg) 3 0

/-- Lanes per port of a shape (R40). -/
def lanesPer (shape : Nat) : Nat :=
  match shape with
  | 1 => 8 | 2 => 8 | 3 => 4 | 4 => 4 | 5 => 2 | 6 => 2 | 7 => 1 | 8 => 1 | _ => 0

/-- Lane rate of a shape in Gb/s (R40). -/
def laneRate (shape : Nat) : Nat := if shape % 2 = 1 then 200 else 100

/-- The MAC serves a port under its group's shape (R40, R41). -/
def servesPort (s : State) (mac : Nat) : Bool :=
  let sh := shapeOf s (groupOf mac)
  let l := 2 * (mac % 4)
  mac < macCount s.variant &&
  (match sh with
   | 1 => l == 0 | 2 => l == 0 | 3 => l % 4 == 0 | 4 => l % 4 == 0
   | 0 => false | _ => sh ≤ 8)

/-- Port rate in Gb/s (R40). -/
def portRate (s : State) (mac : Nat) : Nat :=
  let sh := shapeOf s (groupOf mac)
  lanesPer sh * laneRate sh

/-- The port is enabled (MAC_PORT_CFG.PORT_EN). -/
def portEn (s : State) (mac : Nat) : Bool := flag s (Reg.MAC_PORT_CFG mac) 16

/-- The link is up. -/
def linkUp (s : State) (mac : Nat) : Bool := flag s (Reg.MAC_PORT_STATUS mac) 0

/-- MAX_FRAME of a port. -/
def maxFrame (s : State) (mac : Nat) : Nat := fld s (Reg.MAC_PORT_CFG mac) 13 0

/-- Wire time of `len` bytes in 2^-16 ns, rounded up (the 20 bytes are preamble, delimiter and gap). -/
def wireTime (s : State) (mac len : Nat) : Nat :=
  let r := portRate s mac
  if r = 0 then 0 else ceilDiv ((len + 20) * 8 * 65536) r

/-! ## Roles and pairs of pipes -/

/-- The register of a pipe's role and state. -/
def pipeRoleReg (p : Nat) : Nat := if p < 8 then Reg.PIPE_ROLE p else Reg.PIPE_ROLE_SPARE (p - 8)

/-- STATE of a pipe: 0 OFFLINE, 1 BIST, 2 WARM_SPARE, 3 ACTIVE, 4 FAILED. -/
def pipeState (s : State) (p : Nat) : Nat := fld s (pipeRoleReg p) 2 0

/-- ROLE_OF of a pipe. -/
def roleOf (s : State) (p : Nat) : Nat := fld s (pipeRoleReg p) 11 8

/-- The pipe that holds a role and is ACTIVE. -/
def holderOf (s : State) (role : Nat) : Option Nat :=
  (List.range 10).find? fun p => pipeState s p == 3 && roleOf s p == role

/-- JSTATE of pipe pair k. -/
def pairState (s : State) (k : Nat) : Nat := fld s (Reg.PIPE_PAIR_STATUS k) 17 16

/-- The pair is joined: JOINED, or SPLITTING until its epoch (R121). -/
def pairJoined (s : State) (k : Nat) : Bool := 2 ≤ pairState s k

/-- The pipe that carries a role: its holder, or in a joined pair the survivor that took both roles (R124). -/
def carrierOf (s : State) (role : Nat) : Option Nat :=
  match holderOf s role with
  | some p => some p
  | none => if pairJoined s (role / 2) then holderOf s (role / 2 * 2 + (1 - role % 2)) else none

/-- The transmit role that carries a MAC's port. -/
def txRole (s : State) (mac : Nat) : Nat :=
  let g := groupOf mac
  4 + 2 * g + (if !pairJoined s (2 + g) && 2 ≤ mac % 4 then 1 else 0)

/-! ## Class settings -/

/-- The class is scheduled (R133). -/
def isSched (s : State) (mac c : Nat) : Bool := flag s (Reg.DKL_CLASS_CFG mac c) 31

/-- Gate control is enabled. -/
def gateEn (s : State) (mac : Nat) : Bool := flag s (Reg.DKL_PORT_CFG mac) 0

/-- The PHC of the port's list. -/
def portPhc (s : State) (mac : Nat) : Nat := fld s (Reg.DKL_PORT_CFG mac) 9 8

/-- MAX_SDU of a class: 0 means MAX_FRAME. -/
def maxSdu (s : State) (mac c : Nat) : Nat :=
  let v := fld s (Reg.DKL_CLASS_CFG mac c) 13 0
  if v = 0 then maxFrame s mac else v

/-- Pre-emption is active on the port (R153). -/
def preemptActive (s : State) (mac : Nat) : Bool :=
  flag s (Reg.DKL_PREEMPT_CFG mac) 31 &&
  (flag s (Reg.DKL_PREEMPT_CFG mac) 30 || fld s (Reg.DKL_PREEMPT_STATUS mac) 2 0 == 3)

/-- The class is pre-emptable: PREEMPT set, pre-emption active, and not scheduled (R133). -/
def preemptable (s : State) (mac c : Nat) : Bool :=
  preemptActive s mac && flag s (Reg.DKL_CLASS_CFG mac c) 29 && !isSched s mac c

/-- HOLD_ADVANCE: the wire time of 64 × (ADD_FRAG_SIZE + 1) + 63 bytes (R146). -/
def holdAdvance (s : State) (mac : Nat) : Nat :=
  wireTime s mac (64 * (fld s (Reg.DKL_PREEMPT_CFG mac) 29 28 + 1) + 63)

/-! ## Gate segments -/

/-- A stretch of time with one set of open gates. -/
structure Seg where
  lo : Nat
  hi : Nat
  gates : Byte
  deriving DecidableEq, Repr

/-- The entries of one cycle from `t` on, none running past `stop`, the last one's states holding to `stop` (R137). -/
def cycleSegs : List DklEntry → Nat → Nat → List Seg
  | [], _, _ => []
  | [e], t, stop => if t < stop then [{ lo := t, hi := stop, gates := e.gates }] else []
  | e :: es, t, stop =>
    if stop ≤ t then []
    else
      let u := min (t + e.interval * halfNs) stop
      { lo := t, hi := u, gates := e.gates } :: cycleSegs es u stop

/-- The cycles of a list from cycle start `cs` on, `n` of them. -/
def listSegs (l : DklList) : Nat → Nat → List Seg
  | 0, _ => []
  | n + 1, cs => cycleSegs l.entries cs (cs + l.cycle * halfNs) ++ listSegs l n (cs + l.cycle * halfNs)

/-- The cycles of an old list from `cs` up to the change at `cct`: a cycle that ends less than the old CYCLE_EXT
before CCT is extended to it, and one in progress at CCT is cut short (R139). -/
def oldSegs (l : DklList) (cct : Nat) : Nat → Nat → List Seg
  | 0, _ => []
  | n + 1, cs =>
    if cct ≤ cs then []
    else
      let e := cs + l.cycle * halfNs
      if cct ≤ e then cycleSegs l.entries cs cct
      else if cct - e < l.ext * halfNs then cycleSegs l.entries cs cct
      else cycleSegs l.entries cs e ++ oldSegs l cct n e

/-- The start of the cycle in progress at `t` of a list whose cycles run from `lo`. -/
def cycleAt (l : DklList) (lo t : Nat) : Nat := lo + (t - lo) / (l.cycle * halfNs) * (l.cycle * halfNs)

/-- The cycle before the one in progress at `t`, where its cycles reach back so far. -/
def cycleBefore (l : DklList) (lo t : Nat) : Nat := max lo (cycleAt l lo t - l.cycle * halfNs)

/-- The gate segments of a port from the cycle before the one in progress at `t` on, `n` cycles of each list: the list
before the operational one up to its swap, the operational list, and the pending list from CCT on (R137, R139, R149).
`t` is a time of the port's PHC. -/
def segsFor (s : State) (mac t n : Nat) : List Seg :=
  let p := portOf s mac
  let new := match p.pend with
    | some (l, cct) => listSegs l n (cycleBefore l cct t)
    | none => []
  match p.oper with
  | none => new
  | some (o, _) =>
    let from' := cycleBefore o p.runFrom (match p.pend with | some (_, cct) => min t cct | none => t)
    let cur := match p.pend with
      | some (_, cct) => oldSegs o cct n from'
      | none => listSegs o n from'
    let old := match p.prev with
      | some (q, lo) => if from' = p.runFrom then oldSegs q p.runFrom n (cycleBefore q lo (min t p.runFrom)) else []
      | none => []
    old ++ cur ++ new

/-- The gate segments as far as binding looks from time `t` (R149). -/
def portSegs (s : State) (mac t : Nat) : List Seg := segsFor s mac t (fld s (Reg.DKL_PORT_CFG mac) 19 16 + 3)

/-- The maximal runs of adjoining segments in which a class is open. -/
def runs (c : Nat) : List Seg → Option Win → List Win
  | [], none => []
  | [], some w => [w]
  | g :: gs, acc =>
    if g.gates.getLsbD c then
      match acc with
      | none => runs c gs (some { opens := g.lo, closes := g.hi })
      | some w => if w.closes = g.lo then runs c gs (some { w with closes := g.hi })
                  else w :: runs c gs (some { opens := g.lo, closes := g.hi })
    else
      match acc with
      | none => runs c gs none
      | some w => w :: runs c gs none

/-- The windows of a class in view at time `t`. -/
def windowsAt (s : State) (mac c t : Nat) : List Win := runs c (portSegs s mac t) none

/-- The windows of a class in view now. -/
def windowsOf (s : State) (mac c : Nat) : List Win := windowsAt s mac c (phcNow s (portPhc s mac))

/-- Two stretches of time overlap. -/
def overlap (a b : Win) : Bool := a.opens < b.closes && b.opens < a.closes

/-- The close of a window of a class: that of the run of open gates it is part of, where that is in view. A gate that
never closes is in view only so far, so its windows seem to end there until time goes on. -/
def windowEnd (s : State) (mac c : Nat) (w : Win) : Nat :=
  match (windowsOf s mac c).find? (overlap w) with
  | some v => max v.closes w.closes
  | none => w.closes

/-- Round up to 1/16 ns, which is 4,096 units. -/
def up16 (t : Nat) : Nat := ceilDiv t 4096 * 4096

/-- The time another class can delay a frame of a window (B_c of R147). -/
def guardOfClass (s : State) (mac c : Nat) : Nat :=
  if preemptable s mac c then holdAdvance s mac else wireTime s mac (maxSdu s mac c)

/-- The guard band of a window, from the gate segments it lies in (R147). -/
def guardBand (s : State) (mac : Nat) (segs : List Seg) (w : Win) : Nat :=
  let within := segs.filter fun g => overlap w { opens := g.lo, closes := g.hi }
  up16 ((List.range 8).foldl (fun m c =>
    if !isSched s mac c && within.any (fun g => g.gates.getLsbD c) then max m (guardOfClass s mac c) else m) 0)

/-- The time that bound frames take of a window: the frames given, and the ones of the port in transmission or cut. -/
def reserved (s : State) (mac : Nat) (fs : List TxFrame) (w : Win) : Nat :=
  let p := portOf s mac
  ((fs ++ p.inTx.toList ++ p.rest.toList).map fun f => match f.bound with
    | some v => if overlap v w then wireTime s mac f.bytes.length else 0
    | none => 0).sum

/-- The starts after `t` of `n` cycles at most of a list whose cycles run from `lo`, as far as `stop`: the cycle that
would start so close to it that the one before is extended does not start (R139). -/
def startsAfter (l : DklList) (lo t : Nat) (stop : Option Nat) (n : Nat) : List Nat :=
  let cyc := l.cycle * halfNs
  let first := if t < lo then lo else cycleAt l lo t + cyc
  ((List.range n).map fun k => first + k * cyc).filter fun x => match stop with
    | some cct => x < cct && l.ext * halfNs ≤ cct - x
    | none => true

/-- The end of the BIND_CYCLES-th cycle after time `t` (R149). -/
def bindHorizon (s : State) (mac t : Nat) : Nat :=
  let p := portOf s mac
  let n := fld s (Reg.DKL_PORT_CFG mac) 19 16
  let cur := match p.oper with
    | some (o, _) => startsAfter o p.runFrom t (p.pend.map Prod.snd) (n + 1)
    | none => []
  let new := match p.pend with
    | some (l, cct) => startsAfter l cct t none (n + 1)
    | none => []
  (cur ++ new).getD n 0

/-- The earliest window that meets R149 for a frame of class `c` and length `len`, behind the frames `fs` of its queue;
`now` is the PHC time of the binding. -/
def findWindow (s : State) (mac c len now : Nat) (fs : List TxFrame) : Option Win :=
  let segs := portSegs s mac now
  let ahead := fs.foldl (fun m f => match f.bound with | some w => max m w.opens | none => m) 0
  (runs c segs none).find? fun w =>
    ahead ≤ w.opens && now < w.closes && w.opens < bindHorizon s mac now &&
    wireTime s mac len + reserved s mac fs w + guardBand s mac segs w ≤ w.closes - max now w.opens

/-- Frames of the class are bound to windows at present: gate control is on, the class is scheduled, and a list is in
view (R141, R149). -/
def bindsNow (s : State) (mac c : Nat) : Bool :=
  gateEn s mac && isSched s mac c && ((portOf s mac).oper.isSome || (portOf s mac).pend.isSome)

/-- GUARD_MAX, over the windows of the operational list alone, and HOLD_ADVANCE of DKL_GUARD, in 1/16 ns. -/
def guardReg (s : State) (mac : Nat) : Word :=
  let segs := match (portOf s mac).oper with
    | some (o, _) => listSegs o 3 0
    | none => []
  let ws := (List.range 8).flatMap fun c => if isSched s mac c then runs c segs none else []
  let g := ws.foldl (fun m w => max m (guardBand s mac segs w)) 0
  let h := if preemptActive s mac then up16 (holdAdvance s mac) else 0
  BitVec.ofNat 32 (g / 4096 % 65536 * 65536 + h / 4096 % 65536)

end Sys2Proof.Machine
end

