-- ==== Sys2Proof/Machine/Complete.lean ====
section
/-! DEFINITION. Queues and completion queues as shared operations: completion entries, shadow writes and moderation
(R340 to R348), the transmit timestamp queue (R181 to R183), waits and their release (R164, R231), halts (R351, R352),
stops (R355), and broke with its samples (R117, R118). -/

namespace Sys2Proof.Machine

/-! ## Broke -/

/-- The sample record of a dropped frame (R118): its bytes as it stood when dropped, and its original length where it was
rewritten before. -/
def sampleBytes (s : State) (reason : Nat) (bytes : List Byte) (src : FrameSrc) (fid pipe n orig : Nat) : List Byte :=
  toLe 1 reason ++ toLe 1 src.kind ++ toLe 2 src.num ++ toLe 4 (if orig = 0 then bytes.length else orig) ++ toLe 8 s.deviceTime.toNat ++
  toLe 2 fid ++ toLe 1 pipe ++ [0] ++ toLe 4 n ++ toLe 8 0 ++
  bytes.take (16 * fld s (Reg.BRK_SAMPLE_CFG) 19 16)

/-- A frame goes to broke with one reason: its counter rises by one (R117), and the drop that brings it to a multiple
of 2^SHIFT is sampled, or counted as lost when the store holds 4,096 (R118). -/
def broke (s : State) (reason : Nat) (bytes : List Byte) (src : FrameSrc) (fid : Nat := 0xFFFF) (pipe : Nat := 0xFF)
    (orig : Nat := 0) : State :=
  let s := count s (Reg.BRK_DROP reason)
  let n := rd64 s (Reg.BRK_DROP reason)
  let cfg := Reg.BRK_REASON_CFG reason
  if flag s cfg 5 && n % 2 ^ fld s cfg 4 0 == 0 then
    if 4096 ≤ s.pkt.samples.length then count s (Reg.BRK_SAMPLE_LOST)
    else { s with pkt := { s.pkt with samples := s.pkt.samples ++ [⟨sampleBytes s reason bytes src fid pipe n orig⟩] } }
  else s

/-! ## Queues and CQs -/

/-- Change a queue that exists. -/
def modQ (s : State) (qid : Nat) (f : Queue → Queue) : State :=
  match tget s.wq.queues qid with
  | some q => { s with wq := { s.wq with queues := tset s.wq.queues qid (f q) } }
  | none => s

/-- Change a CQ that exists. -/
def modCq (s : State) (c : Nat) (f : Cq → Cq) : State :=
  match tget s.wq.cqs c with
  | some q => { s with wq := { s.wq with cqs := tset s.wq.cqs c (f q) } }
  | none => s

/-- The QID of a function's local queue. -/
def qidOf (s : State) (fid loc : Nat) : Option Nat :=
  (s.wq.queues.find? fun p => p.2.fid == fid && p.2.loc == loc).map Prod.fst

/-- The CQID of a function's local CQ. -/
def cqidOf (s : State) (fid loc : Nat) : Option Nat :=
  (s.wq.cqs.find? fun p => p.2.fid == fid && p.2.loc == loc).map Prod.fst

/-- Ring sizes. -/
def qSize (q : Queue) : Nat := 2 ^ q.log2
def cqSize (q : Cq) : Nat := 2 ^ q.log2

/-- Entries of a CQ written and not yet taken. -/
def cqPending (q : Cq) : Nat := (q.pi + cqSize q - q.ci) % cqSize q

/-- The CQ is full (R346). -/
def cqFull (q : Cq) : Bool := (q.pi + 1) % cqSize q == q.ci

/-- Write the shadow: PI and COMPLETION_COUNT as one 8-byte write, behind the dirty bits (R314, R345). -/
def shadowWrite (s : State) (c : Nat) : State :=
  match tget s.wq.cqs c with
  | none => s
  | some q =>
    if q.dead || !canRequest s q.fid then s
    else modCq (hostWrite (dirtyFlush s q.fid) q.fid q.pasid q.shadow (toLe 4 q.pi ++ toLe 4 q.total.toNat)) c
      fun q => { q with shadowPi := q.pi }

/-- Fire a CQ (R348): shadow, then the MSI-X message; the CQ is disarmed and its timer stops. -/
def cqFire (s : State) (c : Nat) : State :=
  match tget s.wq.cqs c with
  | none => s
  | some q =>
    let s := dirtyFlush (shadowWrite s c) q.fid
    modCq (signal s q.fid q.vector) c fun q => { q with armed := false, timer := false }

/-- An entry was written to the CQ, or a doorbell armed it: fire at once, or start the timer (R348). -/
def cqModerate (s : State) (c : Nat) : State :=
  match tget s.wq.cqs c with
  | none => s
  | some q =>
    if q.armed && 0 < cqPending q then
      if q.modCount ≤ cqPending q || q.modTime == 0 then cqFire s c
      else modCq s c fun q => { q with timer := true }
    else s

/-- Write one 16-byte entry to a CQ with room (R345): the dirty bits first (R314), then the entry; PI and
COMPLETION_COUNT advance. A MALFORMED completion fires the CQ at once (R348). -/
def cqPut (s : State) (c : Nat) (bytes : List Byte) (urgent : Bool) : State :=
  match tget s.wq.cqs c with
  | none => s
  | some q =>
    if q.dead then s
    else
      let s := hostWrite (dirtyFlush s q.fid) q.fid q.pasid (q.base + 16 * q.pi) bytes
      let s := modCq s c fun q => { q with pi := (q.pi + 1) % cqSize q, total := q.total + 1 }
      if urgent then cqFire s c else cqModerate s c

/-- A completion entry (R340). -/
def cplBytes (q : Queue) (idx status detail : Nat) (info : List Byte) (flags : Nat) : List Byte :=
  (info ++ List.replicate (10 - info.length) 0).take 10 ++ toLe 2 (flags % 64 * 1024 + q.loc % 1024) ++
  toLe 1 status ++ toLe 1 detail ++ toLe 2 idx

/-- Write the completion of the queue's oldest entry if it is settled: into the CQ, into the CQ's on-chip store while
it is full, or nowhere yet while that store holds 64 or the function may issue no request (R286, R343, R346). That of a
TX_FRAME shows its TS_REQ (R342). -/
def flushOne (s : State) (qid : Nat) : State :=
  match tget s.wq.queues qid with
  | none => s
  | some q =>
    match q.entries with
    | e :: rest =>
      match e.state with
      | .done st det info fl =>
        let pop := fun (t : State) => modQ t qid fun q => { q with
          entries := rest, head := (e.idx + 1) % qSize q, drops := if st == 0x0B then 0 else q.drops }
        match tget s.wq.cqs q.cq with
        | none => pop s
        | some c =>
          let b := cplBytes q e.idx st det info (if e.op = 0x01 then e.flags % 2 else fl)
          if !canRequest s q.fid then s
          else if cqFull c || !c.held.isEmpty then
            if c.held.length < 64 then modCq (pop s) q.cq fun c => { c with held := c.held ++ [b] } else s
          else cqPut (pop s) q.cq b (st == 0x0A)
      | _ => s
    | [] => s

/-- Write every completion of the queue that is due, in ring order (R343). -/
def flushQ (s : State) (qid : Nat) : State :=
  match tget s.wq.queues qid with
  | none => s
  | some q => q.entries.foldl (fun s _ => flushOne s qid) s

/-- Settle an entry's outcome; an outcome once settled stands. -/
def settleEntry (s : State) (qid idx status detail : Nat) (info : List Byte := []) (flags : Nat := 0) : State :=
  modQ s qid fun q => { q with entries := q.entries.map fun e =>
    match e.state with
    | .done .. => e
    | _ => if e.idx = idx then { e with state := .done status detail info flags } else e }

/-- Write the entries a full CQ held, as space appears (R346, R183). -/
def cqDrainOne (s : State) (c : Nat) : State :=
  match tget s.wq.cqs c with
  | none => s
  | some q =>
    match q.held with
    | b :: rest => if cqFull q || !canRequest s q.fid then s else cqPut (modCq s c fun q => { q with held := rest }) c b
        (q.kind == 0 && leAt b 12 1 == 0x0A)
    | [] => s

/-! ## Transmit timestamps -/

/-- A TSQ entry (R182). -/
def tsqBytes (tsId : Nat) (discarded lost : Bool) (lostCnt mac phc t : Nat) : List Byte :=
  toLe 2 tsId ++ toLe 1 (discarded.toNat * 128 + lost.toNat * 64 + mac * 8 + phc * 2) ++ toLe 1 lostCnt ++
  toLe 6 (timeSec t) ++ toLe 4 (timeNs t) ++ toLe 2 (timeFrac t)

/-- Write a TSQ entry, or hold it while the TSQ is full, or drop it while the store of 256 is full; the first entry
not dropped after drops carries LOST (R182, R183). -/
def tsqPut (s : State) (c tsId : Nat) (discarded : Bool) (mac phc t : Nat) : State :=
  match tget s.wq.cqs c with
  | none => s
  | some q =>
    let b := tsqBytes tsId discarded (0 < q.lost) (min q.lost 255) mac phc t
    if cqFull q || !q.held.isEmpty || !canRequest s q.fid then
      if q.held.length < 256 then modCq s c fun q => { q with held := q.held ++ [b], lost := 0 }
      else modCq s c fun q => { q with lost := q.lost + 1 }
    else cqPut (modCq s c fun q => { q with lost := 0 }) c b false

/-! ## Frames of the egress side -/

/-- Release the egress cells of a frame (R127, R132). -/
def freeEgress (s : State) (mac : Nat) (f : TxFrame) : State :=
  match f.pool with
  | .reserve => modPort s mac fun p => { p with egrMin := tmod p.egrMin f.cls 0 (· - f.cells) }
  | .shared =>
    let a := Reg.DKL_EGR_CLASS_USED mac f.cls
    setFld s a 17 0 (fld s a 17 0 - f.cells)
  | _ => s

/-! ## Host reads -/

/-- Tags of a function's space (R290). -/
def tagSpace (f : Fn) : Nat := match f.tagMode with | 2 => 16384 | 1 => 1024 | _ => 256

/-- Non-posted requests outstanding on a link. -/
def outstanding (s : State) (k : Nat) : Nat :=
  (s.host.fns.map fun p => (p.2.tags.filter fun t => t.2.link == k).length).sum

/-- The tag the function's next read takes: the first from `nextTag` on that is neither outstanding nor quarantined. -/
def freeTag (f : Fn) : Option Nat :=
  ((List.range (tagSpace f)).map fun i => (f.nextTag + i) % tagSpace f).find? fun t =>
    (tget f.tags t).isNone && !f.quar.contains t

/-- Issue the payload read of an entry, if the function may and has a tag (R290). -/
def issueRead (s : State) (qid : Nat) (q : Queue) (e : QEntry) : State :=
  let f := fnOf s q.fid
  let k := linkOf s q.fid
  if canRequest s q.fid && outstanding s k < 8192 then
    match freeTag f with
    | none => s
    | some t =>
      let s := modFn s q.fid fun f => { f with
        tags := tset f.tags t { link := k, qid := some qid, entry := e.idx }, nextTag := (t + 1) % tagSpace f }
      let s := e.sge.foldl (fun s b => emit (dtuTouch s q.fid q.pasid b.1) (.hostRead q.fid q.pasid b.1 b.2 t)) s
      modQ s qid fun q => { q with entries := q.entries.map fun x =>
        if x.idx = e.idx then { x with state := .started } else x }
  else s

/-! ## Waits -/

/-- The trigger slot of a function's local index (R161). -/
def trigOf (s : State) (fid loc : Nat) : Option Nat := (fnOf s fid).trigSlots[loc]?

/-- How a WAIT entry stands: not satisfied, satisfied (true), or without its slot or CQ (false) (R164, R165, R231). -/
def waitDone (s : State) (q : Queue) (e : QEntry) : Option Bool :=
  if e.op = 0x33 then
    match trigOf s q.fid (leAt e.raw 4 2 % 4096) with
    | none => some false
    | some t =>
      let fires := (tgetD s.time.trigs t {}).fires
      if 0 ≤ signed 16 (toBits 16 ((fires : Int) - leAt e.raw 6 2)) then some true else none
  else
    match cqidOf s q.fid (leAt e.raw 4 2 % 1024) with
    | none => some false
    | some c =>
      match tget s.wq.cqs c with
      | none => some false
      | some cq => if 0 ≤ signed 32 (toBits 32 ((cq.total.toNat : Int) - leAt e.raw 8 4)) then some true else none

/-- The traffic class of a HOST_TX entry: its own with TC_OVR, otherwise the queue's (R337). -/
def txClass (q : Queue) (e : QEntry) : Nat := if e.flags / 4 % 2 = 1 then leAt e.raw 18 1 % 8 else q.tc

/-- A HOST_TX frame of a SCHED class is SCHEDULED work (R433). -/
def schedItem (s : State) (q : Queue) (e : QEntry) : Bool := q.type == 0 && isSched s q.mac (txClass q e)

/-- The entry's outcome is settled. -/
def isDone (e : QEntry) : Bool := match e.state with | .done .. => true | _ => false

/-- An entry that holds what is behind it: a WAIT_CQ, a WAIT_TIME or a fence. -/
def isWait (e : QEntry) : Bool := e.op == 0x32 || e.op == 0x33 || e.op == 0x30

/-- Go through a queue's entries in order: waits that are satisfied complete, a fence completes once every entry ahead
is settled, and entries behind no open wait become ready. `block` is the PRELOAD flag of the wait or fence in force;
a TX_FRAME or a WR with payload behind a wait with PRELOAD, as far as the next fence or wait without it, is ready for its
payload read too (R164). `fired` says that a WAIT_TIME ahead was satisfied, which makes what it releases SCHEDULED
(R433). -/
def scanEntries (s : State) (q : Queue) : List QEntry → Bool → Option Bool → Bool → List QEntry
  | [], _, _, _ => []
  | e :: es, clear, block, fired =>
    match e.state with
    | .held =>
      match block with
      | some pre =>
        if pre && (e.op == 0x01 || (0x10 ≤ e.op && e.op ≤ 0x12)) then
          { e with state := .ready false } :: scanEntries s q es false block fired
        else
          let on := pre && (!isWait e || (e.op != 0x30 && e.flags % 2 == 1))
          e :: scanEntries s q es false (some on) fired
      | none =>
        if e.op = 0x32 ∨ e.op = 0x33 then
          match waitDone s q e with
          | some true => { e with state := .done 0 0 [] 0 } :: scanEntries s q es clear none (fired || e.op == 0x33)
          | some false => { e with state := .done 1 0 [] 0 } :: scanEntries s q es clear none fired
          | none => e :: scanEntries s q es false (some (e.flags % 2 == 1)) fired
        else if e.op = 0x30 then
          if clear then { e with state := .done 0 0 [] 0 } :: scanEntries s q es clear none fired
          else e :: scanEntries s q es false (some false) fired
        else if e.op = 0x31 then { e with state := .done 0 0 [] 0 } :: scanEntries s q es clear none fired
        else if e.op = 0x02 ∨ e.op = 0x40 then e :: scanEntries s q es false none fired
        else { e with state := .ready (fired || schedItem s q e) } :: scanEntries s q es false none fired
    | .done .. => e :: scanEntries s q es clear block fired
    | _ => e :: scanEntries s q es false block fired

/-- The indices of entries behind an open wait or fence. -/
def blockedIdx : List QEntry → List Nat
  | [] => []
  | e :: es =>
    if e.state == .held && isWait e then es.map QEntry.idx
    else blockedIdx es

/-- The frame of a TX_FRAME entry whose payload has arrived. -/
def frameOfEntry (qid : Nat) (q : Queue) (e : QEntry) (payload : List Byte) (preload : Bool) : TxFrame :=
  { bytes := withFcs payload
    cls := txClass q e
    src := { kind := 2, num := qid }
    host := some (qid, e.idx)
    preload := preload
    stream := if e.flags / 2 % 2 = 1 then some (leAt e.raw 16 2 % 32768) else none }

/-- Hand the frames whose payload has arrived to the transmit inlet of the port, in queue order (R337). -/
def pumpTx (s : State) (qid : Nat) : State :=
  match tget s.wq.queues qid with
  | none => s
  | some q =>
    let blocked := blockedIdx q.entries
    let ready := (q.entries.filter fun e => e.op == 0x01).takeWhile fun e =>
      e.data.isSome || (match e.state with | .held => false | .ready _ => false | .started => false | _ => true)
    ready.foldl (fun s e =>
      match e.state, e.data with
      | .started, some d =>
        let f := frameOfEntry qid q e d (blocked.contains e.idx)
        let s := modPort s q.mac fun p => { p with waiting := p.waiting ++ [f] }
        modQ s qid fun q => { q with entries := q.entries.map fun x =>
          if x.idx = e.idx then { x with state := .queued } else x }
      | _, _ => s) s

/-- The MAC a queue's frames leave by: its own, or its connection's. -/
def qMac (s : State) (q : Queue) : Nat :=
  match q.conn with
  | some c => (match tget s.wove.conns c with | some k => k.mac | none => q.mac)
  | none => q.mac

/-- The entry whose frame goes back to the transmit inlet is held at its source again. -/
def unadmit (s : State) (f : TxFrame) : State :=
  match f.host with
  | none => s
  | some (qid, idx) => modQ s qid fun q => { q with
      entries := q.entries.map fun e => if e.idx = idx && e.state == .admitted then { e with state := .queued } else e }

/-- Bind released frames of a class queue in order and put each at its tail; from the first that finds no window on they
are held at their source again (R149, R150, R164), and returned. -/
def bindReleased (s : State) (mac c : Nat) : List TxFrame → List TxFrame × State
  | [] => ([], s)
  | f :: fs =>
    let cur := queueOf (portOf s mac) c
    let put := fun (f : TxFrame) => modPort s mac fun p => { p with queues := tset p.queues c (cur ++ [f]) }
    if bindsNow s mac c then
      match findWindow s mac c f.bytes.length (phcNow s (portPhc s mac)) (cur.filter fun x => !x.preload) with
      | some w => bindReleased (put { f with preload := false, bound := some w }) mac c fs
      | none =>
        let held := (f :: fs).map fun x => { x with preload := false, pass := none, passed := false, pool := .none, cells := 0, tried := some (phcNow s (portPhc s mac)) }
        (held, (f :: fs).foldl (fun s x => unadmit (freeEgress s mac x) x) s)
    else bindReleased (put { f with preload := false }) mac c fs

/-- Release the preloaded frames of a queue that no open wait holds any more: each is bound (R149) and takes its place
at the tail of its class queue; those that find no window wait at the transmit inlet, ahead of what is there. -/
def releasePreloads (s : State) (qid : Nat) : State :=
  match tget s.wq.queues qid with
  | none => s
  | some q =>
    let mac := qMac s q
    let blocked := blockedIdx q.entries
    let mine := fun (f : TxFrame) => match f.host.or f.wr with
      | some (i, idx) => i == qid && f.preload && !blocked.contains idx
      | none => false
    let s := modPort s mac fun p => { p with
      waiting := p.waiting.map fun f => if mine f then { f with preload := false } else f }
    let (held, s) := (List.range 8).foldl (fun (acc : List TxFrame × State) c =>
      let fs := (queueOf (portOf acc.2 mac) c).filter mine
      let s := modPort acc.2 mac fun p => { p with queues := tset p.queues c ((queueOf p c).filter fun f => !mine f) }
      let (held, s) := bindReleased s mac c fs
      (acc.1 ++ held, s)) ([], s)
    let back := q.entries.flatMap fun e => held.filter fun f => (f.host.or f.wr).map Prod.snd == some e.idx
    modPort s mac fun p => { p with waiting := back ++ p.waiting }

/-- SRC_LEN and AAD_LEN of a job block (R255), and the bytes a job counts as outstanding. -/
def jobSrcLen (b : List Byte) : Nat := leAt b 4 4
def jobAadLen (b : List Byte) : Nat := leAt b 2 2
def jobBytes (b : List Byte) : Nat := jobSrcLen b + jobAadLen b

/-- A transform job: it runs on an engine (R256). -/
def isTransform (b : List Byte) : Bool := 0x10 ≤ leAt b 0 1 && leAt b 0 1 ≤ 0x15

/-- Job bytes outstanding on lane or engine `n`. -/
def jobLoad (s : State) (transform : Bool) (n : Nat) : Nat :=
  ((s.cph.jobs.filter fun p => p.2.lane == some n && isTransform p.2.block == transform).map
    fun p => jobBytes p.2.block).sum

/-- The member of a list with the least load, the first on a tie. -/
def leastLoaded (load : Nat → Nat) (l : List Nat) : Option Nat :=
  l.foldl (fun m n => match m with
    | none => some n
    | some k => if load n < load k then some n else some k) none

/-- A job finds no OPEN lane or engine (R424). -/
def noCandidate (s : State) (b : List Byte) : Bool := if isTransform b then (jobEngines s).isEmpty else (jobLanes s).isEmpty

/-- A JOB starts: it becomes a job of the least free number; a transform job goes to the engine with the fewest bytes
outstanding (R263). One that finds no OPEN candidate completes with DOMAIN_CLOSED (R424). -/
def newJob (s : State) (qid : Nat) (q : Queue) (e : QEntry) : State :=
  if noCandidate s e.block then settleEntry s qid e.idx 0x08 0
  else
    match firstFree (s.cph.jobs.length + 1) fun n => (tget s.cph.jobs n).isSome with
    | none => s
    | some n =>
      let lane := if isTransform e.block then leastLoaded (jobLoad s true) (jobEngines s) else none
      { s with cph := { s.cph with
        jobs := tset s.cph.jobs n { qid := qid, idx := e.idx, fid := q.fid, block := e.block, lane := lane } } }

/-- Start an entry the dispatcher has admitted: a HOST_TX frame by its payload read, any other by marking it started,
a JOB as a job too (R434). -/
def startEntry (s : State) (qid : Nat) (q : Queue) (e : QEntry) : State :=
  if e.op = 0x01 then issueRead s qid q e
  else
    let s := if e.op = 0x20 then newJob s qid q e else s
    modQ s qid fun q => { q with
      entries := q.entries.map fun x =>
        if x.idx = e.idx then (match x.state with | .done .. => x | _ => { x with state := .started }) else x }

/-- Let a queue go on: settle its waits and fences, start its SCHEDULED items (R435), write the completions due, and
show WAITING while a wait holds it. -/
def advanceQ (s : State) (qid : Nat) : State :=
  match tget s.wq.queues qid with
  | none => s
  | some q =>
    if q.state = 1 ∨ q.state = 2 then
      let es := scanEntries s q q.entries true none false
      let waiting := es.any fun e => e.state == .held && (e.op == 0x32 || e.op == 0x33)
      let s := modQ s qid fun q => { q with entries := es, state := if waiting then 2 else 1 }
      let s := es.foldl (fun s e => if e.state == .ready true then startEntry s qid q e else s) s
      flushQ (releasePreloads (pumpTx s qid) qid) qid
    else flushQ s qid

/-- Let every queue of a function go on, as often as a completion of one can satisfy a WAIT_CQ of another. -/
def kick (s : State) (fid : Nat) : State :=
  let ids := (s.wq.queues.filter fun p => p.2.fid == fid).map Prod.fst
  ids.foldl (fun s _ => ids.foldl advanceQ s) s

/-- The queues of the function a queue belongs to go on: what was written to one of its CQs may satisfy a WAIT_CQ
(R231). -/
def kickOf (s : State) (qid : Nat) : State :=
  match tget s.wq.queues qid with
  | some q => kick s q.fid
  | none => s

/-! ## Outcomes of transmit frames -/

/-- What a completion says of a TS_ID: its bytes (R181, R340). -/
def tsInfo (ts : Option (Nat × Nat)) : List Byte :=
  match ts with
  | some (_, id) => toLe 2 id
  | none => []

/-- Report the outcome of a host frame: its entry settles with the status, its queue's completions go out, and the queues
of its function go on. -/
def completeFrame (s : State) (f : TxFrame) (status : Nat) : State :=
  match f.host with
  | none => s
  | some (qid, idx) =>
    kickOf (flushQ (settleEntry s qid idx status 0 (tsInfo f.ts)) qid) qid

/-- An entry is written to a TSQ, and the queues of its function go on. -/
def tsqEntry (s : State) (c tsId : Nat) (discarded : Bool) (mac phc t : Nat) : State :=
  match tget s.wq.cqs c with
  | some q => kick (tsqPut s c tsId discarded mac phc t) q.fid
  | none => s

/-- A DISCARDED entry for a frame that asked for a timestamp (R72). -/
def tsDiscard (s : State) (mac : Nat) (f : TxFrame) : State :=
  match f.ts with
  | some (c, id) => tsqEntry s c id true mac (fld s (Reg.TIM_PORT_TS mac) 9 8) 0
  | none => s

/-- Discard a frame of a port under R66 to R70 or R151: the counter of its cause, the completion status of its
descriptor and a DISCARDED timestamp entry (R72); its cells are free again. -/
def discardTx (s : State) (mac : Nat) (f : TxFrame) (status counter : Nat) : State :=
  completeFrame (tsDiscard (freeEgress (count s counter) mac f) mac f) f status

/-- A transmit frame goes to broke, at the pipe of its port: a host entry completes with ABORTED, a timestamp with
DISCARDED. -/
def brokeTx (s : State) (mac reason : Nat) (f : TxFrame) : State :=
  let pipe := (carrierOf s (txRole s mac)).getD 0xFF
  completeFrame (tsDiscard (broke (freeEgress s mac f) reason f.bytes f.src 0xFFFF pipe f.orig) mac f) f 0x01

/-- A frame that leaves the port without an outcome of its own, as its entry was aborted (R287, R351, R355): its cells
are free again, and a TS_ID it holds has its entry. -/
def withdrawTx (s : State) (mac : Nat) (f : TxFrame) : State := tsDiscard (freeEgress s mac f) mac f

/-! ## Error reporting, halts and stops -/

/-- Bits of the AER uncorrectable status register (PCIe; assumption 13, PRESUMED). -/
def aerPoisoned : Nat := 12
def aerTimeout : Nat := 14
def aerUnexpected : Nat := 16
def aerUnsupported : Nat := 20
def aerInternal : Nat := 22

/-- What a report sends: fatal where software made the error so, otherwise non-fatal, or advisory for an unexpected
completion and an unsupported request (R298). -/
def aerMessage (f : Fn) (bit : Nat) : String :=
  if f.aerSev.getLsbD bit then "AER_FATAL"
  else if bit = aerUnexpected ∨ bit = aerUnsupported then "AER_ADVISORY" else "AER_NONFATAL"

/-- A function reports an error through its AER capability, unless software masked it; every report writes an
error-log record (R298). -/
def aer (s : State) (fid bit : Nat) : State :=
  let f := fnOf s fid
  let w : Word := f.aer ||| BitVec.ofNat 32 (2 ^ bit)
  let s := modFn s fid fun f => { f with aer := w }
  if f.aerMask.getLsbD bit then s
  else logErr (emit s (.pcie (aerMessage f bit) fid bit)) 0x0101 2 0x100 [w.toNat] fid

/-- A memory request that reaches a function which does not take it completes with Unsupported Request (R276, R298);
over a link that is down none arrives. -/
def unsupportedReq (s : State) (fid : Nat) : State :=
  if fnPresent s fid && !s.host.perstLow && !(linkRec s (linkOf s fid)).lost then
    aer (emit s (.unsupported fid)) fid aerUnsupported
  else s

/-- Take off a port the frames that a test selects: those at its transmit inlet and those in its class queues. -/
def withdraw (s : State) (mac : Nat) (atInlet inQueue : TxFrame → Bool) : State :=
  let p := portOf s mac
  let gone := p.waiting.filter atInlet ++ (List.range 8).flatMap fun c => (queueOf p c).filter inQueue
  let s := modPort s mac fun p => { p with
    waiting := p.waiting.filter fun f => !atInlet f
    queues := tmap p.queues fun _ fs => fs.filter fun f => !inQueue f }
  gone.foldl (fun s f => withdrawTx s mac f) s

/-- The preloaded frames of entries of a queue leave the port (R164). -/
def dropPreloads (s : State) (qid : Nat) (q : Queue) : State :=
  let mine := fun (f : TxFrame) => f.preload && (match f.host.or f.wr with | some (i, _) => i == qid | none => false)
  withdraw s (qMac s q) mine mine

/-- An entry whose work has started, or whose outcome is settled. -/
def hasStarted (e : QEntry) : Bool := match e.state with | .held | .ready _ => false | _ => true

/-- Some queues enter HALTED at once (R351): fetched entries that have not started are never completed, the others run
on. -/
def haltQueues (s : State) (qs : Tab Queue) : State :=
  let s := qs.foldl (fun s p =>
    let blocked := blockedIdx p.2.entries
    modQ s p.1 fun q => { q with
      state := 6
      entries := q.entries.filter fun e => isDone e || (hasStarted e && !blocked.contains e.idx) }) s
  qs.foldl (fun s p => flushQ (dropPreloads s p.1 p.2) p.1) s

/-- Halt a function (R351): its queues enter HALTED and fetch nothing; the halt is reported and recorded. -/
def haltFn (s : State) (fid : Nat) (cqSide : Bool) (qid idx detail : Nat) : State :=
  let s := modFn s fid fun f => { f with halted := true }
  let s := haltQueues s (s.wq.queues.filter fun p => p.2.fid == fid)
  let last := (qid % 65536 * 65536 + fid % 4096) * 2 ^ 32 + idx % 65536 * 65536 + detail % 256 * 256 + cqSide.toNat
  let s := wr64 s (Reg.Q_LAST_MALFORMED) last
  let s := hwSet s (Reg.Q_HALT_STATUS) 0 15 0
  logErr (aer s fid aerInternal) 0x0201 3 0x210 [last] fid

/-- Halt the device (R352): every function halts, and DEVICE_HALTED is set; FUNCTION_HALT records the one event. -/
def haltDevice (s : State) (qid idx detail : Nat) : State :=
  let s := haltQueues s s.wq.queues
  let last := qid % 65536 * 65536 * 2 ^ 32 + idx % 65536 * 65536 + detail % 256 * 256
  let s := wr64 s (Reg.Q_LAST_MALFORMED) last
  let s := setFlag (hwSet s (Reg.Q_HALT_STATUS) 0 15 0) (Reg.Q_HALT_STATUS) 1 true
  logErr (aer s 0 aerInternal) 0x0202 3 0x210 [last] 0

/-- The device is halted. -/
def deviceHalted (s : State) : Bool := flag s (Reg.Q_HALT_STATUS) 1

/-- A function is halted: by itself, or with the device (R351, R352). -/
def fnHalted (s : State) (fid : Nat) : Bool := (fnOf s fid).halted || deviceHalted s

/-- The frames of a queue that are held at the source or preloaded leave the port. -/
def dropQueued (s : State) (qid : Nat) (q : Queue) : State :=
  let mine := fun (f : TxFrame) => match f.host with
    | some (i, _) => i == qid
    | none => (match f.wr with | some (i, _) => i == qid && f.preload | none => false)
  withdraw s (qMac s q) mine fun f => mine f && f.preload

/-- The TS_ID that the frame of an entry holds on its port (R181). -/
def tsOfEntry (s : State) (qid : Nat) (q : Queue) (e : QEntry) : Option (Nat × Nat) :=
  let p := portOf s q.mac
  ((p.waiting ++ (List.range 8).flatMap (queueOf p)).find? fun f => f.host == some (qid, e.idx)).bind TxFrame.ts

/-- The entry keeps the outcome its frame or buffer settles: it is done, or its frame was admitted and is not a
preloaded one (R287, R355). -/
def keepsOutcome (s : State) (qid : Nat) (q : Queue) (e : QEntry) : Bool :=
  isDone e || (e.state == .admitted &&
    !((List.range 8).any fun c => (queueOf (portOf s q.mac) c).any fun f => f.host == some (qid, e.idx) && f.preload))

/-- Settle with `status` every fetched entry of a queue whose outcome was not settled before (R287, R355), and discard
what its open reads return. A completion returns the TS_ID its frame was given (R181). -/
def abortEntries (s : State) (qid status : Nat) : State :=
  match tget s.wq.queues qid with
  | none => s
  | some q =>
    let es := q.entries.map fun e =>
      if keepsOutcome s qid q e then e
      else
        { e with state := .done status 0 (tsInfo (tsOfEntry s qid q e)) 0 }
    let s := dropQueued (modQ s qid fun q => { q with entries := es }) qid q
    let s := modFn s q.fid fun f => { f with
      tags := tmap f.tags fun _ t => if t.qid == some qid then { t with discard := true } else t }
    flushQ s qid

/-- The posted entries of a queue that were never fetched join its entries as aborted (R355). -/
def absorbPosted (s : State) (qid : Nat) : State :=
  modQ s qid fun q => { q with
    next := q.tail
    entries := q.entries ++ (List.range ((q.tail + qSize q - q.next) % qSize q)).map fun k =>
      { idx := (q.next + k) % qSize q, op := 0, flags := 0, len := 0, addr := 0, raw := [], state := .done 0x01 0 [] 0 } }

/-- Stop a queue (R355): it fetches nothing more, and every outstanding entry completes; QUEUE_STOP_DONE ends it. -/
def stopQueue (s : State) (qid : Nat) : State :=
  match tget s.wq.queues qid with
  | none => s
  | some q =>
    if q.state = 4 ∨ q.state = 5 ∨ q.state = 6 then s
    else flushQ (absorbPosted (abortEntries (modQ s qid fun q => { q with state := 4 }) qid 0x01) qid) qid

/-- An entry's read failed (R292, R311): it completes with ABORTED and the detail, and its queue stops. An entry whose
own descriptor could not be read joins the fetched ones for that. -/
def failEntry (s : State) (qid idx detail : Nat) : State :=
  let s := modQ s qid fun q =>
    if q.next = idx ∧ !(q.entries.any fun e => e.idx == idx) then
      { q with
        next := (q.next + 1) % qSize q
        entries := q.entries ++ [{ idx := idx, op := 0, flags := 0, len := 0, addr := 0, raw := [], state := .started }] }
    else q
  kickOf (stopQueue (settleEntry s qid idx 0x01 detail) qid) qid

/-- Send the Page Requests that wait, as far as the allocation permits (R310). -/
def sendPageReqs (s : State) (fid : Nat) : State :=
  (fnOf s fid).pageReqs.foldl (fun s r =>
    let f := fnOf s fid
    if !r.sent && (f.pageReqs.filter PageReq.sent).length < f.priAlloc then
      let s := pmuEvent s 0x108 0x5402 1 (some fid)
      emit (modFn s fid fun f => { f with pageReqs := f.pageReqs.map fun x => if x.req = r.req then { x with sent := true } else x })
        (.pcie "PAGE_REQUEST" fid r.req)
    else s) s

/-- A read of an entry failed translation: with PRI enabled the operation is held behind a Page Request (R310),
otherwise it fails (R311). -/
def faultEntry (s : State) (qid idx : Nat) : State :=
  match tget s.wq.queues qid with
  | none => s
  | some q =>
    if !(fnOf s q.fid).pri then failEntry s qid idx 0x30
    else if (fnOf s q.fid).pageReqs.any fun r => r.qid == qid && r.entry == idx then s
    else
      sendPageReqs (modFn s q.fid fun f => { f with
        nextReq := (f.nextReq + 1) % 512
        pageReqs := f.pageReqs ++ [{ req := f.nextReq, pasid := q.pasid, qid := qid, entry := idx, sent := false }] }) q.fid

/-- Report a failed read of a function (R292, R298): a Completion Timeout and a poisoned completion alone go to AER. -/
def reportRead (s : State) (fid : Nat) (r : ReadFail) : State :=
  match r with
  | .timeout => aer (hwSet s (Reg.HIF_EVENT (linkOf s fid)) 3 31 16) fid aerTimeout
  | .poison => aer s fid aerPoisoned
  | _ => s

/-- A read of an entry failed: by translation, or otherwise. -/
def failRead (s : State) (qid idx : Nat) (r : ReadFail) : State :=
  match tget s.wq.queues qid with
  | none => s
  | some q => if r = .translation then faultEntry s qid idx else failEntry (reportRead s q.fid r) qid idx 0

/-- The entry waits for a page response. -/
def pageHeld (s : State) (fid qid idx : Nat) : Bool := (fnOf s fid).pageReqs.any fun r => r.qid == qid && r.entry == idx

end Sys2Proof.Machine
end

