-- ==== Sys2Proof/Machine/Egress.lean ====
section
/-! DEFINITION. The transmit side as shared operations: the roles of pipes, power domains, the four admission rules
over a pool (R78, R127, R132), FRER generation (R158), admission to a port's class queue with its binding (R149,
R150), the choice of the next frame (R143 to R145), and rebinding (R152). -/

namespace Sys2Proof.Machine

/-! ## Roles and exemptions -/

/-- The receive role that carries a MAC's port (R42, R119): the even one of a joined pair. -/
def rxRole (s : State) (mac : Nat) : Nat :=
  let g := groupOf mac
  2 * g + (if !pairJoined s g && 2 ≤ mac % 4 then 1 else 0)

/-- The class is EXEMPT on a pipe, and its EXEMPT_CELLS (R129). -/
def exemptCells (s : State) (pipe c : Nat) : Option Nat :=
  if flag s (Reg.PIPE_INLET_CLASS pipe c) 31 then some (fld s (Reg.PIPE_INLET_CLASS pipe c) 15 0) else none

/-- The same at the inlet of a role: on the pipe that carries it. -/
def exemptAt (s : State) (role c : Nat) : Option Nat := exemptCells s ((carrierOf s role).getD role) c

/-! ## Pools -/

/-- The MACs that R41 gives a port. -/
def portMacs (s : State) : List Nat := (List.range 8).filter (servesPort s)

/-- INLET_CELLS. -/
def inletCells (s : State) : Nat := fld s (Reg.HBX_BUF_CFG) 17 0

/-- The cells reserved at the inlet (R80). -/
def inletReserved (s : State) : Nat :=
  ((portMacs s).map fun n => fld s (Reg.HBX_PORT_CTRL_RES n) 15 0 + ((List.range 8).map fun c =>
    fld s (Reg.HBX_CLASS_CFG n c) 15 0 + fld s (Reg.HBX_CLASS_PFC n c) 29 16).sum).sum

/-- The inlet's shared pool and its free cells (R80). -/
def inletPool (s : State) : Nat := inletCells s - inletReserved s
def inletFree (s : State) : Nat :=
  inletPool s - ((List.range 8).map fun n => fld s (Reg.HBX_PORT_USED n) 17 0).sum

/-- The cells reserved in the egress region (R132). -/
def egressReserved (s : State) : Nat :=
  ((portMacs s).map fun n => ((List.range 8).map fun c => fld s (Reg.DKL_EGR_CLASS n c) 15 0).sum).sum

/-- The egress shared pool and its free cells (R132). -/
def egressRegion (s : State) : Nat := 196608 - inletCells s
def egressPool (s : State) : Nat := egressRegion s - egressReserved s
def egressFree (s : State) : Nat :=
  egressPool s - ((List.range 8).map fun n =>
    ((List.range 8).map fun c => fld s (Reg.DKL_EGR_CLASS_USED n c) 17 0).sum).sum

/-- A threshold from the free cells and an ALPHA code (R79): free × 2^(ALPHA − 6), at most 262,143. -/
def threshold (free alpha : Nat) : Nat := min (free * 2 ^ alpha / 64) 262143

/-- The cells of a frame (R75). -/
def cellsOf (len : Nat) : Nat := ceilDiv len 256

/-- The pool a frame of `n` cells is admitted to by the first rule of R78 that holds: `resUsed` and `min` of the class,
`shared` its shared usage, `t` its threshold, `exempt` its EXEMPT_CELLS if exempt (R129), `portUsed` and `share` of the
port, `free` shared cells, and headroom usage and limit of a lossless class. -/
def admitRule (n resUsed minCells shared t : Nat) (exempt : Option Nat) (portUsed share free headUsed headroom : Nat)
    (lossless : Bool) : Option Pool :=
  if resUsed + n ≤ minCells then some .reserve
  else if (shared + n ≤ t || (match exempt with | some x => decide (shared ≤ x) | none => false)) &&
      portUsed + n ≤ share && n ≤ free then some .shared
  else if lossless && headUsed + n ≤ headroom then some .headroom
  else none

/-! ## FRER generation -/

/-- A VLAN tag begins at an offset (R157, R158): a C-tag or an S-tag. -/
def vlanAt (bytes : List Byte) (off : Nat) : Bool := beAt bytes off 2 == 0x8100 || beAt bytes off 2 == 0x88A8

/-- The VID of a frame's outermost VLAN tag; 0 where it is untagged. -/
def vlanOf (bytes : List Byte) : Nat := if vlanAt bytes 12 then beAt bytes 14 2 % 4096 else 0

/-- The stream's key matches the frame: null identification by destination and VID, or by source and VID. -/
def streamMatches (st : Stream) (bytes : List Byte) : Bool :=
  (st.idMode == 1 && beAt bytes 0 6 == st.idMac && vlanOf bytes == st.idVid) ||
  (st.idMode == 2 && beAt bytes 6 6 == st.idMac && vlanOf bytes == st.idVid)

/-- The generating stream a transmit frame belongs to (R157): the handle its descriptor names, or the first stream whose
identification matches. -/
def txStream (s : State) (f : TxFrame) : Option Nat :=
  match f.stream with
  | some h => match tget s.time.streams h with
    | some st => if st.gen then some h else none
    | none => none
  | none => (s.time.streams.find? fun p => p.2.gen && streamMatches p.2 f.bytes).map Prod.fst

/-- Where an R-TAG goes: after the last VLAN tag, or after the source address (R158). -/
def tagOffset : Nat → List Byte → Nat → Nat
  | 0, _, off => off
  | n + 1, bytes, off =>
    if vlanAt bytes off then tagOffset n bytes (off + 4) else off

/-- A frame with an R-TAG inserted and its FCS made again (R158). -/
def insertRtag (bytes : List Byte) (seq : Nat) : List Byte :=
  let b := dropFcs bytes
  let off := tagOffset 8 b 12
  withFcs (b.take off ++ [0xF1, 0xC1, 0, 0] ++ toBe 2 seq ++ b.drop off)

/-! ## Admission -/

/-- Charge a frame's egress cells. -/
def chargeEgress (s : State) (mac : Nat) (f : TxFrame) : State :=
  match f.pool with
  | .reserve => modPort s mac fun p => { p with egrMin := tmod p.egrMin f.cls 0 (· + f.cells) }
  | .shared =>
    let a := Reg.DKL_EGR_CLASS_USED mac f.cls
    setFld s a 17 0 (fld s a 17 0 + f.cells)
  | _ => s

/-- The egress pool a frame would be admitted to (R127, R132). -/
def egressRule (s : State) (mac cls n : Nat) : Option Pool :=
  let used := fld s (Reg.DKL_EGR_CLASS_USED mac cls) 17 0
  let portUsed := ((List.range 8).map fun c => fld s (Reg.DKL_EGR_CLASS_USED mac c) 17 0).sum
  admitRule n (tgetD (portOf s mac).egrMin cls 0) (fld s (Reg.DKL_EGR_CLASS mac cls) 15 0) used
    (tgetD (portOf s mac).egrT cls 0) (exemptAt s (txRole s mac) cls) portUsed
    (fld s (Reg.DKL_EGR_SHARE mac) 17 0) (egressFree s) 0 0 false

/-- The frame's TS_ID, assigned at admission (R181): the next of the TSQ its queue names, when its descriptor asked. A
frame that was admitted before keeps the one it was given. -/
def assignTs (s : State) (f : TxFrame) : Option (Nat × Nat) × State :=
  match f.ts, f.host with
  | some t, _ => (some t, s)
  | none, none => (none, s)
  | none, some (qid, idx) =>
    match tget s.wq.queues qid with
    | none => (none, s)
    | some q =>
      match q.tsq, q.entries.find? (fun e => e.idx == idx) with
      | some c, some e =>
        if e.flags % 2 = 1 then
          match tget s.wq.cqs c with
          | some t => (some (c, t.tsId), modCq s c fun t => { t with tsId := (t.tsId + 1) % 65536 })
          | none => (none, s)
        else (none, s)
      | _, _ => (none, s)

/-- Mark the entry of an admitted host frame. -/
def markAdmitted (s : State) (f : TxFrame) : State :=
  match f.host with
  | none => s
  | some (qid, idx) => modQ s qid fun q => { q with
      entries := q.entries.map fun e => if e.idx = idx && !isDone e then { e with state := .admitted } else e }

/-- What became of a frame at the transmit inlet: `noWindow` is held until a window of its class closes (R150). -/
inductive Admission where
  | admitted | gone | held | noWindow
  deriving DecidableEq, Repr

/-- Put an admitted frame at the tail of its class queue. -/
def enqueueTx (s : State) (mac : Nat) (f : TxFrame) : State :=
  modPort s mac fun p => { p with queues := tset p.queues f.cls (queueOf p f.cls ++ [f]) }

/-- A port takes no frame: it is disabled or FLUSHING (R69, R70). -/
def turnsAway (s : State) (mac : Nat) : Bool := !portEn s mac || flag s (Reg.MAC_PORT_STATUS mac) 1

/-- Admit one frame to its port and class, its stream already seen to (R53, R69, R70, R127, R132, R134, R149, R150). While
the port is in HOLD no frame is discarded for want of space (R67). A frame turned away under R69 is given its TS_ID
first, so that its discard is reported (R72). -/
def admitTx (s : State) (mac : Nat) (f : TxFrame) : Admission × State :=
  let len := f.bytes.length
  if turnsAway s mac then
    let (ts, s) := assignTs s f
    (.gone, discardTx s mac { f with ts := ts } 0x02 (Reg.TX_LINK_DOWN mac))
  else if (carrierOf s (txRole s mac)).isNone then
    if s.pkt.unfilled.contains (txRole s mac) then (.gone, brokeTx s mac 0x0B f) else (.held, s)
  else if maxFrame s mac < len then (.gone, brokeTx s mac 0x07 f)
  else if maxSdu s mac f.cls < len then
    let s := count s (Reg.DKL_SDU_OVERRUN mac)
    if f.host.isSome then (.gone, completeFrame s f 0x09) else (.gone, brokeTx s mac 0x0A f)
  else
    match egressRule s mac f.cls (cellsOf len) with
    | none =>
      if f.canWait || flag s (Reg.MAC_PORT_STATUS mac) 2 then (.held, s)
      else (.gone, brokeTx s mac (if f.mirror then 0x0C else 0x0A) f)
    | some pool =>
      let ahead := (queueOf (portOf s mac) f.cls).filter fun x => !x.preload
      let w := if bindsNow s mac f.cls && !f.preload then
          (findWindow s mac f.cls len (phcNow s (portPhc s mac)) ahead).map some
        else some none
      match w with
      | none => if f.canWait then (.noWindow, s) else (.gone, brokeTx s mac 0x0A f)
      | some bound =>
        let (ts, s) := assignTs s f
        let f := { f with
          tried := none
          pool := pool, cells := cellsOf len, bound := bound, ts := ts, enq := s.deviceTime.toNat
          tag := f.tag.map fun t => { t with egress := s.deviceTime.toNat } }
        (.admitted, markAdmitted (enqueueTx (chargeEgress s mac f) mac f) f)

/-- Take the frame at position `i` of a port's waiting list out of it. -/
def takeWaiting (s : State) (mac i : Nat) : State :=
  modPort s mac fun p => { p with waiting := p.waiting.eraseIdx i }

/-- Put a copy of a generating stream's frame at a port's transmit inlet, behind the copies that wait there already, so
that admission is in the order of sequence numbers (R158). -/
def pushWaiting (s : State) (mac : Nat) (f : TxFrame) : State :=
  modPort s mac fun p =>
    let n := p.waiting.length - (p.waiting.reverse.takeWhile fun x => !x.tagged).length
    { p with waiting := p.waiting.take n ++ [f] ++ p.waiting.drop n }

/-- Assign the next sequence number of a generating stream and make the member copies (R158): the copy for PORT_A
carries the host entry, the copy for PORT_B none. -/
def replicate (s : State) (h : Nat) (st : Stream) (f : TxFrame) : State :=
  let s := { s with time := { s.time with streams := tset s.time.streams h { st with
    seq := (st.seq + 1) % 65536, generated := (st.generated + 1) % 2 ^ 48 } } }
  let g := { f with bytes := insertRtag f.bytes st.seq, tagged := true, stream := some h }
  let s := pushWaiting s st.portA g
  if st.portB = 0xF then s else pushWaiting s st.portB { g with host := none }

/-- What a frame at a transmit inlet waits in line with: the frames of its source, or, once it is a member copy, those of
its stream, so that a member stream that must wait holds nothing else (R73; assumption 88, DEDUCED). -/
def lineOf (f : TxFrame) : Bool × Nat × Nat :=
  if f.tagged then (true, 0, f.stream.getD 0) else (false, f.src.kind, f.src.num)

/-- A frame that found no window waits for the next close of a window of its class (R150). -/
def waitsWindow (s : State) (mac : Nat) (f : TxFrame) : Bool := f.tried.isSome && bindsNow s mac f.cls && !turnsAway s mac

/-- Try the waiting frames of a port in order, each line in its own order, until one is admitted or gone (R127): `skip`
are the lines that must wait. -/
def admitNext (s : State) (mac : Nat) : List TxFrame → Nat → List (Bool × Nat × Nat) → State
  | [], _, _ => s
  | f :: fs, i, skip =>
    if skip.contains (lineOf f) || waitsWindow s mac f then admitNext s mac fs (i + 1) (lineOf f :: skip)
    else
      match (if f.tagged then none else txStream s f) with
      | some h =>
        match tget s.time.streams h with
        | some st => replicate (takeWaiting s mac i) h st f
        | none => s
      | none =>
        match admitTx s mac f with
        | (.held, _) => admitNext s mac fs (i + 1) (lineOf f :: skip)
        | (.noWindow, _) =>
          let now := phcNow s (portPhc s mac)
          let s := modPort s mac fun p => { p with waiting := modAt p.waiting i fun x => { x with tried := some now } }
          admitNext s mac fs (i + 1) (lineOf f :: skip)
        | (_, t) => takeWaiting t mac i

/-- One admission at the transmit inlet of a port. -/
def admitOne (s : State) (mac : Nat) : State := admitNext s mac (portOf s mac).waiting 0 []

/-- Hand a frame to the transmit inlet of a port. -/
def sendTo (s : State) (mac : Nat) (f : TxFrame) : State :=
  modPort s mac fun p => { p with waiting := p.waiting ++ [f] }

/-! ## Gates and the choice of the next frame -/

/-- The gate of a class is open now, and when it closes on the port's PHC; none for an open end (R141, R142). -/
def gateNow (s : State) (mac c : Nat) : Option (Option Nat) :=
  let p := portOf s mac
  if !gateEn s mac || p.oper.isNone then some none
  else if p.stepped then none
  else
    let now := phcNow s (portPhc s mac)
    match (windowsOf s mac c).find? fun w => w.opens ≤ now && now < w.closes with
    | some w => some (some w.closes)
    | none => none

/-- The frames that a transmit role carries, with their MACs: those of the class queues of its ports (R42, R119). -/
def roleFrames (s : State) (role : Nat) : List (Nat × TxFrame) :=
  ((List.range (macCount s.variant)).filter fun m => txRole s m == role).flatMap fun m =>
    (List.range 8).flatMap fun c => (queueOf (portOf s m) c).map fun f => (m, f)

/-- The transmit passes in progress of a role: pipe and place in the order of starts. -/
def txPasses (s : State) (role : Nat) : List (Nat × Nat) := (roleFrames s role).filterMap fun p => p.2.pass

/-- The frame's pass on its transmit pipe is over. One that no PASS_START has shown by now has ended too, unless a pass
of its role is still in progress: a pass lasts 2 µs at most (R119; assumption 105, DESIGN CHOICE). -/
def passOver (s : State) (mac : Nat) (f : TxFrame) : Bool :=
  f.passed || (f.pass.isNone && (txPasses s (txRole s mac)).isEmpty)

/-- The head of a class queue that may be chosen: preloaded frames are not eligible (R164), and its pass is over. -/
def headOf (s : State) (mac c : Nat) : Option TxFrame :=
  ((queueOf (portOf s mac) c).find? fun f => !f.preload).filter (passOver s mac)

/-- The frame may start now as an express frame or on a port without pre-emption (R144): its wire time ends by the
close of its gate, and a bound frame lies within its window (R149). -/
def fitsGate (s : State) (mac : Nat) (f : TxFrame) (close : Option Nat) : Bool :=
  let now := phcNow s (portPhc s mac)
  let stop := now + wireTime s mac f.bytes.length
  (match close with | some c => stop ≤ c | none => true) &&
  (match f.bound with | some w => w.opens ≤ now && stop ≤ windowEnd s mac f.cls w | none => true)

/-- The class's head may start (R143 to R145, R57). -/
def startable (s : State) (mac c : Nat) : Option TxFrame :=
  match headOf s mac c, gateNow s mac c with
  | some f, some close =>
    if (tget (portOf s mac).paused c).isSome then none
    else if preemptable s mac c then (if (portOf s mac).hold || (portOf s mac).rest.isSome then none else some f)
    else if fitsGate s mac f close then some f else none
  | _, _ => none

/-- The classes in the order of R143: SCHED classes, other express classes TC_7 first, pre-emptable ones TC_7 first;
strict priority where gate control is off (R141). -/
def classOrder (s : State) (mac : Nat) : List Nat :=
  let all := [7, 6, 5, 4, 3, 2, 1, 0]
  if gateEn s mac then
    all.filter (isSched s mac) ++ all.filter (fun c => !isSched s mac c && !preemptable s mac c) ++
    all.filter (preemptable s mac)
  else all

/-- The express classes. -/
def expressOrder (s : State) (mac : Nat) : List Nat := (classOrder s mac).filter fun c => !preemptable s mac c

/-- The next frame to start among some classes. -/
def choose (s : State) (mac : Nat) (order : List Nat) : Option TxFrame :=
  (order.filterMap fun c => startable s mac c).head?

/-- Take a frame out of its class queue: the first eligible one. -/
def dequeueTx (s : State) (mac c : Nat) : State :=
  modPort s mac fun p => { p with
    queues := tset p.queues c (((queueOf p c).takeWhile fun f => f.preload) ++
      ((queueOf p c).dropWhile fun f => f.preload).drop 1) }

/-! ## Reservations and rebinding -/

/-- RESERVED is the sum of the reservations (R436). -/
def showReserved (s : State) : State :=
  wr s (Reg.DRY_RESERVED) (BitVec.ofNat 32 ((s.dry.resv.map Resv.tokens).sum))

/-- Drop the reservations of a port that a test selects. -/
def dropResv (s : State) (f : Resv → Bool) : State :=
  showReserved { s with dry := { s.dry with resv := s.dry.resv.filter fun r => !f r } }

/-- Bind again the frames of a class queue in order at PHC time `now` (R152): a frame whose window ends at or before
`keep` keeps it; one that finds no window is discarded with GATE_MISSED. -/
def rebindClass (s : State) (mac c keep now : Nat) : State :=
  (queueOf (portOf s mac) c).foldl (fun s f =>
    match f.bound with
    | none => enqueueTx s mac f
    | some w =>
      if w.closes ≤ keep then enqueueTx s mac f
      else
        match findWindow s mac c f.bytes.length now
            ((queueOf (portOf s mac) c).filter fun x => !x.preload) with
        | some v => enqueueTx s mac { f with bound := some v }
        | none => discardTx s mac f 0x09 (Reg.TX_GATE_MISSED mac))
    (modPort s mac fun p => { p with queues := tset p.queues c [] })

/-- Rebind every class of a port at PHC time `now` (R152). -/
def rebindAt (s : State) (mac keep now : Nat) : State :=
  (List.range 8).foldl (fun s c => if bindsNow s mac c then rebindClass s mac c keep now else s) s

/-- Rebind every class of a port (R152). -/
def rebind (s : State) (mac keep : Nat) : State := rebindAt s mac keep (phcNow s (portPhc s mac))

/-- The effects of a step of PHC n on the ports that follow it (R142): the cycle in progress ends, gates stay closed
until the next cycle start in the new timescale, bound frames are bound again there, PHC_STEP is set, and the records
published for the old timescale are withdrawn (R167, R436). `now` is the stepped time. -/
def phcStepped (s : State) (n now : Nat) : State :=
  (List.range 8).foldl (fun s mac =>
    if portPhc s mac == n && mac < macCount s.variant then
      let p := portOf s mac
      let s := match p.oper with
        | some (o, _) =>
          let cyc := o.cycle * halfNs
          let k := if now ≤ o.base then 0 else ceilDiv (now - o.base) cyc
          modPort s mac fun p => { p with
            cycStart := o.base + k * cyc, runFrom := o.base + k * cyc, afterStep := true, prev := none, stepped := true
            waiting := p.waiting.map fun f => { f with tried := f.tried.map fun _ => now } }
        | none => s
      let s := hwSet s (Reg.DKL_PORT_STATUS mac) 5 31 24
      let s := dropResv s fun r => r.mac == mac
      let s := { s with time := { s.time with trigs := tmap s.time.trigs fun _ t =>
        if t.mode = 2 && t.port == mac then { t with last := now } else t } }
      rebindAt s mac 0 now
    else s) s

end Sys2Proof.Machine
end

