-- ==== Sys2Proof/Machine/Bus.lean ====
section
/-! DEFINITION. Writing a register under the access rules: which master may reach BAR 0 (R274, R326, R506), and how
RW, W1C and range-checked fields take a written word (R6, R24, and the "a write of … is ignored" notes of the maps). -/

namespace Sys2Proof.Machine

/-- The access reaches BAR 0: PF 0 with memory space enabled and in D0 (R274, R276), a unit of the device, or the JTAG
port while debug is unlocked (R506). A data core's window is read-only (R376). -/
def reachesBar0 (s : State) (m : Master) : Bool :=
  match m with
  | .fn fid => fid == 0 && (fnOf s 0).memEn && !(fnOf s 0).d3hot && !(fnOf s 0).flr && !s.host.perstLow &&
      !(linkRec s 0).lost
  | .unit _ _ => true
  | .jtag => s.obs.unlocked
  | .core _ => false

/-- Keep the old value of every field whose written value lies outside its ranges. -/
def keepBad (old : Word) : List (Nat × Nat × List (Nat × Nat)) → Word → Word
  | [], v => v
  | (hi, lo, rs) :: cs, v =>
    keepBad old cs (if rs.any fun r => r.1 ≤ bits v hi lo && bits v hi lo ≤ r.2 then v else putBits v hi lo (bits old hi lo))

/-- What a word of a row becomes when `v` is written: RW bits take the new value, range-checked fields keep theirs
where it is out of range, W1C bits written 1 clear, everything else stays. -/
def writtenWord (r : RegRow) (w : Nat) (old v : Word) : Word :=
  let mask : Word := BitVec.ofNat 32 (if w = 0 then r.rwLo else r.rwHi)
  let v' := if w = 0 then keepBad old r.checks v else v
  let clr : Word := if w = 0 then v &&& BitVec.ofNat 32 r.w1c else 0
  ((old &&& ~~~mask) ||| (v' &&& mask)) &&& ~~~clr

/-- Write a register word under its row; reserved offsets and absent units ignore the write (R5, R11). -/
def regWrite (s : State) (a : Nat) (v : Word) : State :=
  match rowOf s.variant a with
  | none => s
  | some (r, w) => wr s a (writtenWord r w (rd s a) v)

/-- The low word a master holds for the wide register whose _LO word is at `lo` (R22). -/
def latchOf (s : State) (m : Master) (lo : Nat) : Option Word :=
  (s.writeLatch.find? fun l => l.1 == m && l.2.1 == lo).map fun l => l.2.2

/-- Empty the write latch of a master. -/
def dropLatch (s : State) (m : Master) : State := { s with writeLatch := s.writeLatch.filter fun l => l.1 != m }

/-- The value a _HI write of `hi` commits: with the held low word if it belongs to this register, otherwise with the low
word as it stands. -/
def wideValue (s : State) (m : Master) (lo : Nat) (hi : Word) : Nat :=
  hi.toNat * 2 ^ 32 + ((latchOf s m lo).getD (rd s lo)).toNat

/-- An access to BAR 0: it takes effect if the master reaches BAR 0; PF 0 where it does not answers with Unsupported
Request (R276), and no other function decodes a BAR 0 (R274). -/
def onBar0 (s : State) (m : Master) (f : State → State) : State :=
  if reachesBar0 s m then f s
  else match m with
    | .fn 0 => unsupportedReq s 0
    | _ => s

/-- A command row that is a write of one BAR 0 register of a unit that may be absent: an absent unit ignores it (R5,
R11). -/
def onUnitWrite (s : State) (m : Master) (present : Bool) (f : State → State) : Host.Outcome State Fault Refusal :=
  live s fun s => onBar0 s m fun s => if present then f s else s

/-- A command row that is a write of one BAR 0 register. -/
def onWrite (s : State) (m : Master) (f : State → State) : Host.Outcome State Fault Refusal :=
  live s fun s => onBar0 s m f

end Sys2Proof.Machine
end

