-- ==== Sys2Proof/Machine/Mac.lean ====
section
/-! DEFINITION. Ports and MAC (R40 to R74), with reassembly (R155), recovery of FRER streams at the MAC (R159) and
receive timestamps (R180). -/

namespace Sys2Proof.Machine

/-- Set CFG_ERR of a port (R43, R44, R422). -/
def macCfgErr (s : State) (mac : Nat) : State := hwSet s (Reg.MAC_PORT_STATUS mac) 5 7 0

/-! ## What a port shows of its link -/

/-- The wake time both ends need, and the mode: 1 Clause 78 on 100 Gb/s lanes, 2 quiet-idle on 200 Gb/s lanes, 0 while
an end has not advertised it, which VALID tells for either kind (R60, R61; assumption 89, DEDUCED). -/
def qiWanted (s : State) (mac : Nat) : Nat × Nat :=
  let l := Reg.MAC_QI_LOCAL mac
  let p := Reg.MAC_QI_PARTNER mac
  if flag s l 31 && flag s p 31 then
    (max (fld s l 30 16) (fld s p 14 0), if laneRate (shapeOf s (groupOf mac)) = 200 then 2 else 1)
  else (0, 0)

/-- A port that may no longer use low-power idle leaves it (R60). -/
def qiSettle (s : State) (mac : Nat) : State :=
  if flag s (Reg.MAC_PORT_CFG mac) 17 && fld s (Reg.MAC_QI_STATUS mac) 17 16 != 0 then s
  else setFlag s (Reg.MAC_QI_STATUS mac) 18 false

/-- MODE and TW_RESOLVED follow what the ends advertise and the lane rate: a new value raises TW_RESOLVED at once; one
that lowers it waits for the next LLDPDU (R60, R61). -/
def qiUpdate (s : State) (mac : Nat) : State :=
  let (tw, mode) := qiWanted s mac
  let st := Reg.MAC_QI_STATUS mac
  let s := qiSettle (setFld s st 17 16 mode) mac
  if fld s st 15 0 ≤ tw then modPort (setFld s st 15 0 tw) mac fun p => { p with twPending := none }
  else modPort s mac fun p => { p with twPending := some tw }

/-- Show whether pre-emption is active; a change moves the guard bands, so bound frames are bound again (R147, R152). -/
def showPreempt (s : State) (mac : Nat) : State :=
  let st := Reg.DKL_PREEMPT_STATUS mac
  let was := flag s st 8
  let s := setFlag s st 8 (preemptActive s mac)
  if was == preemptActive s mac then s else rebind s mac 0

/-- VERIFY_STATUS of a port without a link: INITIAL with PREEMPT_EN, otherwise DISABLED (R154). -/
def verifyInitial (s : State) (mac : Nat) : State :=
  showPreempt (setFld s (Reg.DKL_PREEMPT_STATUS mac) 2 0 (flag s (Reg.DKL_PREEMPT_CFG mac) 31).toNat) mac

/-- The lanes of a port. -/
def lanesOf (s : State) (mac : Nat) : List Nat :=
  (List.range (lanesPer (shapeOf s (groupOf mac)))).map fun i => 2 * mac + i

/-- Mark the initial adaptation of a port's lanes. -/
def setAdapted (s : State) (mac : Nat) (v : Bool) : State :=
  (lanesOf s mac).foldl (fun s l => setFlag s (Reg.MAC_LANE_EQ_STATUS (l / 2) (l % 2)) 1 v) s

/-! ## Shapes -/

/-- The power domains of a lane group: its SerDes, its receive and transmit pipe pairs (R421). -/
def groupDomains (lg : Nat) : List Nat := [25 + lg, 21 + lg, 23 + lg]

/-- Show the fixed delays of a group's lane rate in its MACs (R64). -/
def showIntDelays (s : State) (lg : Nat) : State :=
  let w : Word := if laneRate (shapeOf s lg) = 200 ∨ shapeOf s lg = 0 then 0x02600608 else 0x034008D0
  (List.range 4).foldl (fun s i => wr s (Reg.MAC_TS_CORR_INT (4 * lg + i)) w) s

/-- The reserves fit both regions (R80, R132). -/
def reservesFit (s : State) : Bool := inletReserved s ≤ inletCells s && egressReserved s ≤ egressRegion s

/-- Take a new shape: the delays and the kind of low-power idle of its lane rate; the domains of a group of SHAPE 0 are
held CLOSED, those of a group that leaves SHAPE 0 open again (R41, R60, R64, R422). -/
def takeShape (s : State) (lg shape : Nat) : State :=
  let old := shapeOf s lg
  let s := setFld s (Reg.MAC_LG_CFG lg) 3 0 shape
  let s := (List.range 4).foldl (fun s i => qiUpdate s (4 * lg + i)) (showIntDelays s lg)
  if shape = 0 then (groupDomains lg).foldl (fun s d => setFld s (Reg.DRY_DOMAIN_STATE d) 3 0 2) s
  else if old = 0 then (groupDomains lg).foldl (fun s d => setFld s (Reg.DRY_DOMAIN_STATE d) 3 0 3) s
  else s

/-- A write of MAC_LG_CFG.SHAPE (R43): one while a port of the group is enabled is ignored with CFG_ERR, whatever its
value; codes 9 to 15 are ignored; one whose reserves would not fit (R80, R132) is ignored with CFG_ERR of the side that
does not fit. -/
def writeShape (s : State) (lg : Nat) (v : Word) : State :=
  let shape := bits v 3 0
  if (List.range 4).any fun i => portEn s (4 * lg + i) then macCfgErr s (4 * lg)
  else if 8 < shape then s
  else if !reservesFit (setFld s (Reg.MAC_LG_CFG lg) 3 0 shape) then
    (if inletCells s < inletReserved (setFld s (Reg.MAC_LG_CFG lg) 3 0 shape) then hwSet s (Reg.HBX_CFG_STATUS) 0 7 0
     else hwSet s (Reg.DKL_EGR_STATUS) 0 7 0)
  else takeShape s lg shape

/-- SHAPE_WRITE (R43). -/
def execShapeWrite (m : Master) (lg : Nat) (v : Word) (s : State) : Host.Outcome State Fault Refusal :=
  within (lg < 2) (onUnitWrite s m (4 * lg < macCount s.variant) fun s => writeShape s lg v)

/-! ## Enabling and disabling -/

/-- Discard every frame of a port's class queues with a status, and the one in transmission (R67, R69, R70). -/
def flushPort (s : State) (mac status counter : Nat) (alsoTx : Bool) : State :=
  let p := portOf s mac
  let fs := (List.range 8).flatMap (queueOf p)
  let tx := if alsoTx then p.inTx.toList ++ p.rest.toList else []
  let s := modPort s mac fun p => { p with
    queues := []
    inTx := if alsoTx then none else p.inTx
    rest := if alsoTx then none else p.rest }
  (tx ++ fs).foldl (fun s f => discardTx s mac f status counter) s

/-- The fields a write of MAC_PORT_CFG always takes: QI_EN, without which the port leaves low-power idle (R60), and
MAX_FRAME, which moves the guard bands of windows beside classes whose MAX_SDU it is (R147, R152). -/
def writePortOther (s : State) (mac : Nat) (v : Word) : State :=
  let t := qiSettle (regWrite s (Reg.MAC_PORT_CFG mac) (putBits v 16 16 (portEn s mac).toNat)) mac
  if maxFrame t mac = maxFrame s mac then t else rebind t mac 0

/-- PORT_EN may be set: a SHAPE 1 port is joined (R44), and the domains a port needs are OPEN (R422). The register of a
MAC that serves no port stays writable (R41; assumption 23, DEDUCED). -/
def mayEnable (s : State) (mac : Nat) : Bool :=
  !servesPort s mac || ((shapeOf s (groupOf mac) != 1 || flag s (Reg.MAC_LG_CFG (groupOf mac)) 8) &&
    (groupDomains (groupOf mac)).all (domOpen s))

/-- Set PORT_EN, or refuse it with CFG_ERR (R44, R422). -/
def enablePort (s : State) (mac : Nat) : State :=
  if portEn s mac then s
  else if mayEnable s mac then
    verifyInitial (setFlag s (Reg.MAC_PORT_CFG mac) 16 true) mac
  else macCfgErr s mac

/-- Clear PORT_EN: every queued frame is discarded with LINK_DOWN at once, and no hold applies (R70); the link is down,
so verification starts anew with the next link-up (R154). -/
def disablePort (s : State) (mac : Nat) : State :=
  let s := setFlag s (Reg.MAC_PORT_CFG mac) 16 false
  let s := flushPort s mac 0x02 (Reg.TX_LINK_DOWN mac) true
  let s := modPort s mac fun p => { p with paused := [], hold := false, attempts := 0 }
  let s := setFld (setFlag s (Reg.MAC_QI_STATUS mac) 18 false) (Reg.MAC_PORT_STATUS mac) 2 0 0
  verifyInitial (setAdapted s mac false) mac

/-- Take a written PORT_EN: held while the ports are squelched (R466). -/
def writePortEn (s : State) (mac : Nat) (v : Word) : State :=
  let s := writePortOther s mac v
  let en := bits v 16 16 == 1
  if s.pkt.squelched then modPort s mac fun p => { p with heldEn := some en }
  else if en then enablePort s mac
  else if portEn s mac then disablePort s mac else s

/-- PORT_ENABLE (R44). -/
def execPortEnable (m : Master) (mac : Nat) (v : Word) (s : State) : Host.Outcome State Fault Refusal :=
  within (mac < 8) (onUnitWrite s m (mac < macCount s.variant) fun s => writePortEn s mac v)

/-- PORT_DISABLE (R70). -/
def execPortDisable (m : Master) (mac : Nat) (v : Word) (s : State) : Host.Outcome State Fault Refusal :=
  within (mac < 8) (onUnitWrite s m (mac < macCount s.variant) fun s => writePortEn s mac v)

/-! ## Equalisation -/

/-- The MAC whose port a device lane belongs to. -/
def macOfLane (s : State) (lane : Nat) : Option Nat :=
  ((List.range 4).map fun i => 4 * (lane / 8) + i).find? fun mac =>
    servesPort s mac && 2 * (mac % 4) ≤ lane % 8 && lane % 8 < 2 * (mac % 4) + lanesPer (shapeOf s (lane / 8))

/-- A step of at most one code. -/
def oneStep (i : Int) : Int := if 0 < i then 1 else if i < 0 then -1 else 0

/-- Record a caliper monitor's reading: the last slack and the lowest since the last read (R441, CAL_MON). -/
def monitor (s : State) (n : Nat) (v : Byte) : State :=
  let s := setFld s (Reg.CAL_MON n) 7 0 v.toNat
  if v.toNat < fld s (Reg.CAL_MON n) 15 8 then setFld s (Reg.CAL_MON n) 15 8 v.toNat else s

/-- The coefficients of a stage, each a step nearer to what the adaptation asks (R46). -/
def stepAll (cs steps : List Int) : List Int :=
  (List.range (max cs.length steps.length)).map fun i => cs.getD i 0 + oneStep (steps.getD i 0)

/-- One re-tune of an active lane (R46 to R48): the CTLE code ends at 0 and 255. -/
def retune (s : State) (lane : Nat) (eye : EyeSample) : State :=
  match macOfLane s lane with
  | none => s
  | some mac =>
    if !(portEn s mac && linkUp s mac) then s
    else
      let i := lane / 2
      let j := lane % 2
      let ctrl := Reg.MAC_LANE_EQ_CTRL i j
      let st := Reg.MAC_LANE_EQ_STATUS i j
      let s := setFld (setFld s st 31 24 eye.height.toNat) st 23 16 eye.width.toNat
      let s := monitor s lane eye.height
      let s := if flag s ctrl 0 then s else
        let s := if flag s ctrl 3 then
            setFld s st 15 8 (min 255 ((fld s st 15 8 : Int) + oneStep eye.ctle).toNat) else s
        let s := if flag s ctrl 4 then
            { s with pkt := { s.pkt with ffe := tmod s.pkt.ffe lane [] fun cs => stepAll cs eye.ffe } } else s
        if flag s ctrl 5 then { s with pkt := { s.pkt with dfe := tmod s.pkt.dfe lane [] fun cs => stepAll cs eye.dfe } }
        else s
      if eye.height.toNat < fld s ctrl 15 8 then hwSet s st 0 15 0 else s

/-- LANE_RETUNE (R46). -/
def execLaneRetune (lane : Nat) (eye : EyeSample) (s : State) : Host.Outcome State Fault Refusal :=
  within (lane < 2 * macCount s.variant) (live s fun s => retune s lane eye)

/-- The magnitude of a signed byte. -/
def tapMag (v : Nat) : Nat := (signed 8 v).natAbs

/-- The sum of the tap magnitudes of a MAC_LANE_TX_FFE word is at most 64 (R49). -/
def tapsFit (v : Word) : Bool :=
  tapMag (bits v 31 24) + tapMag (bits v 23 16) + tapMag (bits v 15 8) + tapMag (bits v 7 0) ≤ 64

/-- A write of MAC_LANE_TX_FFE: taps that do not fit are ignored. -/
def writeFfe (s : State) (a : Nat) (v : Word) : State := if tapsFit v then regWrite s a v else s

/-- TX_FFE_WRITE (R49). -/
def execTxFfeWrite (m : Master) (lane : Nat) (v : Word) (s : State) : Host.Outcome State Fault Refusal :=
  within (lane < 16) (onUnitWrite s m (lane < 2 * macCount s.variant) fun s =>
    writeFfe s (Reg.MAC_LANE_TX_FFE (lane / 2) (lane % 2)) v)

/-! ## Flow control -/

/-- PFC_IGNORE_EFF (R55). -/
def pfcIgnoreEff (s : State) (mac : Nat) : Nat :=
  (List.range 8).foldl (fun m p =>
    let c := fld s (Reg.MAC_PRIO_TC mac) (3 * p + 2) (3 * p)
    if flag s (Reg.MAC_PFC_CFG mac) p || (s.grade.cur == .deterministic && isSched s mac c) then m + 2 ^ p else m) 0

/-- The class a priority maps to. -/
def prioClass (s : State) (mac p : Nat) : Nat := fld s (Reg.MAC_PRIO_TC mac) (3 * p + 2) (3 * p)

/-- Pause a class for some quanta; 0 ends the pause. -/
def pauseClass (s : State) (mac c quanta : Nat) : State :=
  modPort s mac fun p => { p with paused := if quanta = 0 then terase p.paused c else tset p.paused c quanta }

/-- A frame received without error, of `n` octets (R74), with its events. -/
def countRx (s : State) (mac n : Nat) : State :=
  let s := count (count s (Reg.RX_FRAMES_OK mac)) (Reg.RX_OCTETS_OK mac) n
  pmuEvent (pmuEvent s (0x300 + mac) 0x1000) (0x300 + mac) 0x1002 n

/-- A frame sent, of `n` octets (R74), with its events. -/
def countTx (s : State) (mac n : Nat) : State :=
  let s := pmuEvent (pmuEvent s (0x300 + mac) 0x1001) (0x300 + mac) 0x1003 n
  count (count s (Reg.TX_FRAMES_OK mac)) (Reg.TX_OCTETS_OK mac) n

/-- A received PAUSE frame (R54, R56): in PAUSE mode it applies to all eight classes. -/
def gotPause (s : State) (mac quanta : Nat) : State :=
  let s := count s (Reg.RX_PAUSE mac)
  if fld s (Reg.MAC_PFC_CFG mac) 25 24 = 1 then (List.range 8).foldl (fun s c => pauseClass s mac c quanta) s else s

/-- A received PFC frame (R54, R55): in PFC mode it applies, per named priority, to its class, but for ignored ones. Of
priorities of one class the highest stands (assumption 90, DESIGN CHOICE). -/
def gotPfc (s : State) (mac : Nat) (enable : Byte) (quanta : List Nat) : State :=
  let s := count s (Reg.RX_PAUSE mac)
  if fld s (Reg.MAC_PFC_CFG mac) 25 24 = 2 then
    let ign := pfcIgnoreEff s mac
    let s := if enable.toNat &&& ign ≠ 0 then count s (Reg.RX_PFC_IGNORED mac) else s
    (List.range 8).foldl (fun s p =>
      if enable.getLsbD p && ign / 2 ^ p % 2 == 0 then pauseClass s mac (prioClass s mac p) (quanta.getD p 0)
      else s) s
  else s

/-- The octets of a MAC control frame, through the FCS (IEEE 802.3; assumption 91, PRESUMED). -/
def ctlOctets : Nat := 64

/-- PAUSE_RECEIVE (R54). -/
def execPauseReceive (mac quanta : Nat) (s : State) : Host.Outcome State Fault Refusal :=
  within (mac < macCount s.variant) (live s fun s =>
    if portEn s mac && linkUp s mac && !s.pkt.squelched then gotPause (countRx s mac ctlOctets) mac quanta else s)

/-- PFC_RECEIVE (R55). -/
def execPfcReceive (mac : Nat) (enable : Byte) (quanta : List Nat) (s : State) : Host.Outcome State Fault Refusal :=
  within (mac < macCount s.variant) (live s fun s =>
    if portEn s mac && linkUp s mac && !s.pkt.squelched then gotPfc (countRx s mac ctlOctets) mac enable quanta else s)

/-- PAUSE_TIMER_EXPIRY (R56). -/
def execPauseTimerExpiry (mac cls : Nat) (s : State) : Host.Outcome State Fault Refusal :=
  within (mac < macCount s.variant) (live s fun s =>
    modPort s mac fun p => { p with paused := terase p.paused cls })

/-- The priorities with PFC_TX_EN that map to a class, as an enable vector. -/
def pfcMask (s : State) (mac cls : Nat) : Nat :=
  (List.range 8).foldl (fun m p =>
    if flag s (Reg.MAC_PFC_CFG mac) (8 + p) && prioClass s mac p == cls then m + 2 ^ p else m) 0

/-- Send a PFC frame that names the priorities of a mask (R58, R74); a port without its link sends none (assumption 92,
DEDUCED). -/
def sendControl (s : State) (mac mask quanta : Nat) : State :=
  if portEn s mac && linkUp s mac then
    countTx (count (emit s (.pause mac (BitVec.ofNat 8 mask)
      ((List.range 8).map fun p => if mask / 2 ^ p % 2 = 1 then quanta else 0))) (Reg.TX_PAUSE mac)) mac ctlOctets
  else s

/-- Send XOFF (`quanta` above 0) or XON for a class (R58), whatever FC_MODE is: the rule names PFC_TX_EN alone
(assumption 92, DEDUCED). -/
def sendPfc (s : State) (mac cls quanta : Nat) : State :=
  let mask := pfcMask s mac cls
  if mask = 0 then s else sendControl s mac mask quanta

/-- The class is lossless (R78 rule 3). -/
def lossless (s : State) (mac cls : Nat) : Bool := pfcMask s mac cls != 0

/-- XOFF_REFRESH (R58). -/
def execXoffRefresh (mac prio : Nat) (s : State) : Host.Outcome State Fault Refusal :=
  within (mac < macCount s.variant) (live s fun s =>
    let c := prioClass s mac prio
    if flag s (Reg.HBX_CLASS_USED mac c) 31 && flag s (Reg.MAC_PFC_CFG mac) (8 + prio) then
      sendControl s mac (2 ^ prio) (fld s (Reg.MAC_PFC_TX_TIME mac) 15 0)
    else s)

/-! ## Low-power idle -/

/-- A write of MAC_QI_LOCAL or MAC_QI_PARTNER, at `a`. -/
def writeQi (s : State) (mac a : Nat) (v : Word) : State := qiUpdate (regWrite s a v) mac

/-- QI_PARTNER_WRITE (R61). -/
def execQiPartnerWrite (m : Master) (mac : Nat) (v : Word) (s : State) : Host.Outcome State Fault Refusal :=
  within (mac < 8) (onUnitWrite s m (mac < macCount s.variant) fun s => writeQi s mac (Reg.MAC_QI_PARTNER mac) v)

/-- An organisational TLV of LLDP: type 127 and length, then its octets. -/
def orgTlv (octets : List Byte) : List Byte := toBe 2 (127 * 512 + octets.length) ++ octets

/-- The TLV by which a port advertises low-power idle (R60): quiet-idle on 200 Gb/s lanes; on 100 Gb/s lanes the IEEE
802.3 EEE TLV, its times in µs (assumption 91, PRESUMED); none while VALID is 0. -/
def idleTlv (s : State) (mac : Nat) : List Byte :=
  let l := Reg.MAC_QI_LOCAL mac
  let p := Reg.MAC_QI_PARTNER mac
  let us := fun (t : Nat) => toBe 2 (ceilDiv t 100)
  if !flag s l 31 then []
  else if laneRate (shapeOf s (groupOf mac)) = 200 then
    orgTlv ([0x4E, 0xF2, 0x1A, 0x21, 0x13] ++ toBe 2 (fld s l 14 0) ++ toBe 2 (fld s l 30 16) ++ [0, 0])
  else
    orgTlv ([0x00, 0x12, 0x0F, 0x05] ++ us (fld s l 30 16) ++ us (fld s l 14 0) ++ us (fld s l 14 0) ++
      us (fld s p 30 16) ++ us (fld s p 14 0))

/-- The LLDPDU of a port as it goes out, without FCS: what firmware gives of it, the TLV for low-power idle, and the end
of the TLVs. -/
def lldpFrame (s : State) (mac : Nat) (head : List Byte) : List Byte := head ++ idleTlv s mac ++ [0, 0]

/-- An LLDPDU has gone out: a TW_RESOLVED that waited for it is applied (R61). -/
def lldpSent (s : State) (mac : Nat) : State :=
  match (portOf s mac).twPending with
  | some tw => modPort (setFld s (Reg.MAC_QI_STATUS mac) 15 0 tw) mac fun p => { p with twPending := none }
  | none => s

/-- The transmit path of the port is empty. -/
def txEmpty (s : State) (mac : Nat) : Bool :=
  let p := portOf s mac
  p.inTx.isNone && p.rest.isNone && (List.range 8).all fun c => (queueOf p c).all fun f => f.preload

/-- The deckle has a gate event of a WAKE class earlier than TW_RESOLVED + 1 µs ahead (R62, R166). -/
def gateSoon (s : State) (mac : Nat) : Bool :=
  let now := phcNow s (portPhc s mac)
  let lead := (fld s (Reg.MAC_QI_STATUS mac) 15 0 * 10 + 1000) * oneNs
  gateEn s mac && (List.range 8).any fun c => flag s (Reg.DKL_CLASS_CFG mac c) 30 &&
    (windowsOf s mac c).any fun w => now ≤ w.opens && w.opens < now + lead

/-- The port enters low-power idle where it may use it and is not in it (R60). -/
def lpiEnter (s : State) (mac : Nat) : State :=
  if flag s (Reg.MAC_PORT_CFG mac) 17 && linkUp s mac && fld s (Reg.MAC_QI_STATUS mac) 17 16 != 0 &&
      !flag s (Reg.MAC_QI_STATUS mac) 18 then
    count (setFlag s (Reg.MAC_QI_STATUS mac) 18 true) (Reg.LPI_ENTRIES mac)
  else s

/-- LPI_ENTRY (R62). -/
def execLpiEntry (mac : Nat) (s : State) : Host.Outcome State Fault Refusal :=
  within (mac < macCount s.variant) (live s fun s =>
    if txEmpty s mac && !gateSoon s mac then lpiEnter s mac else s)

/-- The port leaves low-power idle; in STANDBY its ports stay idle (R27; assumption 93, DEDUCED). -/
def lpiLeave (s : State) (mac : Nat) : State :=
  if s.grade.cur = .standby then s else setFlag s (Reg.MAC_QI_STATUS mac) 18 false

/-- LPI_WAKE (R62): a queued frame wakes the port. -/
def execLpiWake (mac : Nat) (s : State) : Host.Outcome State Fault Refusal :=
  within (mac < macCount s.variant) (live s fun s => if txEmpty s mac then s else lpiLeave s mac)

/-! ## Link state -/

/-- Start verification at a link-up (R154). -/
def verifyStart (s : State) (mac : Nat) : State :=
  if flag s (Reg.DKL_PREEMPT_CFG mac) 31 && !flag s (Reg.DKL_PREEMPT_CFG mac) 30 then
    modPort (emit (setFld s (Reg.DKL_PREEMPT_STATUS mac) 2 0 2) (.mpacket mac false)) mac
      fun p => { p with attempts := 1 }
  else s

/-- A lane takes what its initial adaptation reached (R46, R47): a receiver held by FREEZE keeps its coefficients, and on
passive copper link training leaves its transmit taps (R49). -/
def laneTrained (s : State) (lane : Nat) (r : LaneTrained) : State :=
  let ctrl := Reg.MAC_LANE_EQ_CTRL (lane / 2) (lane % 2)
  let s := if flag s ctrl 6 then wr s (Reg.MAC_LANE_TX_FFE (lane / 2) (lane % 2)) r.txFfe else s
  if flag s ctrl 0 then s
  else
    setFld { s with pkt := { s.pkt with ffe := tset s.pkt.ffe lane r.ffe, dfe := tset s.pkt.dfe lane r.dfe } }
      (Reg.MAC_LANE_EQ_STATUS (lane / 2) (lane % 2)) 15 8 r.ctle.toNat

/-- The lanes of a port take their results, given in the order of the lanes. -/
def trainLanes (s : State) (mac : Nat) (rs : List LaneTrained) : State :=
  ((lanesOf s mac).zip rs).foldl (fun s p => laneTrained s p.1 p.2) s

/-- LINK_UP (R45): the link comes up at the configured lane rate, where the partner offers it. -/
def execLinkUp (p : LinkTrained) (s : State) : Host.Outcome State Fault Refusal :=
  let mac := p.mac
  within (mac < macCount s.variant) (live s fun s =>
    if portEn s mac && servesPort s mac && !linkUp s mac && p.offered.contains (laneRate (shapeOf s (groupOf mac))) then
      let s := setAdapted (trainLanes s mac p.lanes) mac true
      showPreempt (verifyStart (setFlag s (Reg.MAC_PORT_STATUS mac) 0 true) mac) mac
    else s)

/-- The hold of a port expires (R69). -/
def holdExpired (s : State) (mac : Nat) : State :=
  let st := Reg.MAC_PORT_STATUS mac
  let s := setFlag (setFlag s st 2 false) st 1 true
  flushPort (hwSet s st 6 15 8) mac 0x02 (Reg.TX_LINK_DOWN mac) false

/-- The streams that involve a port: a member of a generating one, or a receive port of a recovering one (R160). -/
def streamsOn (s : State) (mac : Nat) : Nat :=
  (s.time.streams.filter fun p =>
    (p.2.gen && (p.2.portA == mac || p.2.portB == mac)) || (p.2.recov != 0 && p.2.rxPorts / 2 ^ mac % 2 == 1)).length

/-- A port's link goes down (R59, R66, R67, R71, R154, R160). -/
def linkDown (s : State) (mac : Nat) : State :=
  let st := Reg.MAC_PORT_STATUS mac
  let s := hwSet (setFlag s st 0 false) st 7 31 16
  let s := setAdapted s mac false
  let s := setFlag s (Reg.MAC_QI_STATUS mac) 18 false
  let p := portOf s mac
  let tx := p.inTx.toList ++ p.rest.toList
  let s := modPort s mac fun p => { p with paused := [], inTx := none, rest := none, attempts := 0 }
  let s := verifyInitial s mac
  let s := tx.foldl (fun s f => discardTx s mac f 0x02 (Reg.TX_LINK_DOWN mac)) s
  let n := streamsOn s mac
  let s := if n = 0 then s else logErr s 0x0402 2 0x410 [mac, n]
  if flag s st 1 || flag s st 2 then s
  else
    let s := setFlag s st 2 true
    if fld s (Reg.MAC_HOLD_CFG mac) 25 16 = 0 then holdExpired s mac else s

/-- LINK_DOWN (R66). -/
def execLinkDown (mac : Nat) (s : State) : Host.Outcome State Fault Refusal :=
  within (mac < macCount s.variant) (live s fun s =>
    if portEn s mac && linkUp s mac then linkDown s mac else s)

/-- HOLD_EXPIRY (R69). -/
def execHoldExpiry (mac : Nat) (s : State) : Host.Outcome State Fault Refusal :=
  within (mac < macCount s.variant) (live s fun s =>
    if flag s (Reg.MAC_PORT_STATUS mac) 2 then holdExpired s mac else s)

/-- What R68 does with a frame at the moment of return: its discard status, or none where it passes. -/
def returnVerdict (s : State) (mac : Nat) (f : TxFrame) : Option Nat :=
  let now := phcNow s (portPhc s mac)
  match f.bound with
  | some w =>
    let close := windowEnd s mac f.cls w
    if close ≤ now || close < max now w.opens + wireTime s mac f.bytes.length then some 0x09 else none
  | none =>
    if fld s (Reg.MAC_STALE_CFG mac) 15 0 * 2000 < s.deviceTime.toNat - f.enq then some 0x03 else none

/-- Scan a class queue from its head at the return (R68): discards until the first frame that passes. -/
def returnScan (s : State) (mac : Nat) : List TxFrame → State
  | [] => s
  | f :: fs =>
    match returnVerdict s mac f with
    | some st =>
      returnScan (discardTx s mac f st (if st = 0x09 then Reg.TX_GATE_MISSED mac else Reg.TX_STALE mac)) mac fs
    | none => s

/-- The frames of a queue from the first that passes on; preloaded frames stay. -/
def returnKeep (s : State) (mac : Nat) (fs : List TxFrame) : List TxFrame :=
  fs.filter (fun f => f.preload) ++ ((fs.filter fun f => !f.preload).dropWhile fun f => (returnVerdict s mac f).isSome)

/-- LINK_RETURN (R68). -/
def execLinkReturn (mac : Nat) (s : State) : Host.Outcome State Fault Refusal :=
  within (mac < macCount s.variant) (live s fun s =>
    let st := Reg.MAC_PORT_STATUS mac
    if !linkUp s mac then s
    else
      let s := setFlag s st 1 false
      if flag s st 2 then
        let s := count (setFlag s st 2 false) (Reg.HOLD_RETURNS mac)
        (List.range 8).foldl (fun s c =>
          let fs := queueOf (portOf s mac) c
          let s' := modPort s mac fun p => { p with queues := tset p.queues c (returnKeep s mac fs) }
          returnScan s' mac (fs.filter fun f => !f.preload)) s
      else s)

/-! ## Receiving a frame -/

/-- How FRER recovery treats a frame of a stream with sequence number `q` (R159): the stream after it, and whether the
frame passes. -/
def recoverSeq (st : Stream) (q : Nat) : Stream × Bool :=
  let pass := fun (st : Stream) => ({ st with passed := (st.passed + 1) % 2 ^ 48 }, true)
  if st.recov = 2 then
    if !st.takeAny && q == st.rcv then ({ st with dup := (st.dup + 1) % 2 ^ 48 }, false)
    else pass { st with rcv := q, takeAny := false }
  else if st.takeAny then pass { st with rcv := q, hist := 1, takeAny := false }
  else
    let d := signed 16 (toBits 16 ((q : Int) - st.rcv))
    if (st.history : Int) ≤ d ∨ d ≤ -(st.history : Int) then ({ st with rogue := (st.rogue + 1) % 2 ^ 48 }, false)
    else if d ≤ 0 then
      let k := d.natAbs
      if st.hist / 2 ^ k % 2 = 1 then ({ st with dup := (st.dup + 1) % 2 ^ 48 }, false)
      else pass { st with hist := st.hist + 2 ^ k, ooo := (st.ooo + 1) % 2 ^ 48 }
    else
      pass { st with
        lost := (st.lost + (d.natAbs - 1)) % 2 ^ 48
        hist := (st.hist * 2 ^ d.natAbs + 1) % 2 ^ st.history
        rcv := q }

/-- Recovery of a received frame (R159): its bytes as they go on, or none where it is discarded. -/
def frerRecover (s : State) (mac : Nat) (bytes : List Byte) : Option (List Byte) × State :=
  match s.time.streams.find? fun p =>
      p.2.recov != 0 && p.2.rxPorts / 2 ^ mac % 2 == 1 && streamMatches p.2 bytes with
  | none => (some bytes, s)
  | some (h, st) =>
    let off := tagOffset 8 bytes 12
    if beAt bytes off 2 = 0xF1C1 then
      let (st', pass) := recoverSeq st (beAt bytes (off + 4) 2)
      let s := { s with time := { s.time with streams := tset s.time.streams h st' } }
      let b := dropFcs bytes
      if pass then (some (if st.popTag then withFcs (b.take off ++ b.drop (off + 6)) else bytes), s) else (none, s)
    else
      let s := { s with time := { s.time with
        streams := tset s.time.streams h { st with tagless := (st.tagless + 1) % 2 ^ 48 } } }
      (if st.taglessPass then some bytes else none, s)

/-- The receive timestamp of a capture (R63, R180): corrected to the MDI and converted into the port's RX_PHC. -/
def rxTime (s : State) (mac cap : Nat) : Nat :=
  let c := (cap : Int) - fld s (Reg.MAC_TS_CORR_INT mac) 15 0 -
    signed 20 (fld s (Reg.MAC_TS_CORR_BOARD_RX mac) 19 0)
  phcAt s (fld s (Reg.TIM_PORT_TS mac) 1 0) c.toNat

/-- The transmit timestamp of a capture (R63, R181). -/
def txTime (s : State) (mac cap : Nat) : Nat :=
  let c := (cap : Int) + fld s (Reg.MAC_TS_CORR_INT mac) 31 16 +
    signed 20 (fld s (Reg.MAC_TS_CORR_BOARD_TX mac) 19 0)
  phcAt s (fld s (Reg.TIM_PORT_TS mac) 9 8) c.toNat

/-- Data flows in the working grades and in DRAIN (R27, R141). -/
def dataOn (s : State) : Bool := 1 ≤ gradeCode s.grade.cur && gradeCode s.grade.cur ≤ 5

/-- A received frame without error (R52, R58, R159, R180): a MAC control frame is consumed; any other passes recovery
and waits for the headbox. -/
def takeFrame (s : State) (mac : Nat) (rx : RxFrame) : State :=
  let s := countRx s mac rx.bytes.length
  if beAt rx.bytes 12 2 = 0x8808 then
    if beAt rx.bytes 14 2 = 0x0001 then gotPause s mac (beAt rx.bytes 16 2)
    else if beAt rx.bytes 14 2 = 0x0101 then
      gotPfc s mac (BitVec.ofNat 8 (beAt rx.bytes 16 2)) ((List.range 8).map fun p => beAt rx.bytes (18 + 2 * p) 2)
    else s
  else if !dataOn s then s
  else
    let t := rxTime s mac rx.capture
    match frerRecover s mac rx.bytes with
    | (none, s) => s
    | (some bytes, s) =>
      { s with pkt := { s.pkt with arrived := tmod s.pkt.arrived mac [] fun l => l ++ [
        { mac := mac, cls := 0, ctrl := false, pool := .none, cells := 0, bytes := bytes
          ts := (shortTime t, timeFrac t), at' := s.deviceTime.toNat }] } }

/-- The additional fragments of a frame. -/
def fragmentsOf : Assembly → Nat
  | .whole => 0
  | .fragments n | .assyError n | .smdError n => n

/-- The MAC takes a frame whole (R51, R52, R155): an uncorrectable codeword, a reassembly or start-delimiter error, a bad
length and a bad FCS each discard it under one counter, the first of them in this order (assumption 32, DESIGN
CHOICE). -/
def receiveFrame (s : State) (mac : Nat) (rx : RxFrame) : State :=
  let rx := { rx with capture := captureOf s (portOf s mac).rxCap rx.capture }
  let s := modPort s mac fun p => { p with rxCap := rx.capture }
  let s := count (count s (Reg.FEC_CORRECTED mac) rx.corrected) (Reg.FEC_UNCORRECTED mac) rx.uncorrectable
  let s := count s (Reg.MM_FRAG_RX mac) (fragmentsOf rx.assembly)
  if 0 < rx.uncorrectable then count s (Reg.RX_FEC_DISCARD mac)
  else
  match rx.assembly with
  | .assyError _ => count s (Reg.MM_ASSY_ERR mac)
  | .smdError _ => count s (Reg.MM_SMD_ERR mac)
  | a =>
    let s := match a with
      | .fragments _ => count s (Reg.MM_ASSY_OK mac)
      | _ => s
    if rx.bytes.length < 64 then count s (Reg.RX_RUNT mac)
    else if maxFrame s mac < rx.bytes.length then count s (Reg.RX_OVERSIZE mac)
    else if rx.fcsBad then count s (Reg.RX_FCS_ERR mac)
    else takeFrame s mac rx

/-- FRAME_RECEIVE (R52). -/
def execFrameReceive (mac : Nat) (rx : RxFrame) (s : State) : Host.Outcome State Fault Refusal :=
  within (mac < macCount s.variant) (live s fun s =>
    if portEn s mac && linkUp s mac && !s.pkt.squelched then receiveFrame s mac rx else s)

end Sys2Proof.Machine
end

