-- ==== Sys2Proof/Machine/Headbox.lean ====
section
/-! DEFINITION. The inlet of the headbox (R75 to R82): class and control frames, admission by reserve, shared pool and
headroom, thresholds, the release of cells with XON, and the guarded configuration writes. -/

namespace Sys2Proof.Machine

/-! ## Classification (R76, R77) -/

/-- An EtherType of a VLAN tag. -/
def isVlan (t : Nat) : Bool := t == 0x8100 || t == 0x88A8

/-- The offset of the EtherType after at most `n` VLAN tags. -/
def etypeAt : Nat → List Byte → Nat → Nat
  | 0, _, off => off
  | n + 1, b, off => if isVlan (beAt b off 2) then etypeAt n b (off + 4) else off

/-- The class of a DSCP (HBX_DSCP_MAP). -/
def dscpClass (s : State) (d : Nat) : Nat :=
  fld s (if d < 60 then Reg.HBX_DSCP_MAP (d / 10) else Reg.HBX_DSCP_MAP_6) (3 * (d % 10) + 2) (3 * (d % 10))

/-- The class by PCP, or the default class of an untagged frame. -/
def pcpClass (s : State) (mac : Nat) (b : List Byte) : Nat :=
  if isVlan (beAt b 12 2) then prioClass s mac (beAt b 14 1 / 32) else fld s (Reg.HBX_PORT_CFG mac) 2 0

/-- The inlet class of a frame (R76). -/
def inletClass (s : State) (mac : Nat) (b : List Byte) : Nat :=
  match fld s (Reg.HBX_PORT_CFG mac) 17 16 with
  | 0 => fld s (Reg.HBX_PORT_CFG mac) 2 0
  | 1 => pcpClass s mac b
  | _ =>
    let off := etypeAt 2 b 12
    if beAt b off 2 = 0x0800 ∧ off + 4 ≤ b.length then dscpClass s (beAt b (off + 3) 1 / 4)
    else if beAt b off 2 = 0x86DD ∧ off + 4 ≤ b.length then dscpClass s (beAt b (off + 2) 2 / 64 % 64)
    else pcpClass s mac b

/-- The frame is a control frame (R77). -/
def isControl (s : State) (b : List Byte) : Bool :=
  let t := beAt b (etypeAt 2 b 12) 2
  let e0 := fld s (Reg.HBX_CTRL_ETYPE) 15 0
  let e1 := fld s (Reg.HBX_CTRL_ETYPE) 31 16
  t == 0x88F7 || t == 0x88CC || (e0 != 0 && t == e0) || (e1 != 0 && t == e1)

/-! ## Usage of the inlet pools -/

/-- Shared and headroom cells of a class. -/
def sharedUsed (s : State) (mac c : Nat) : Nat := fld s (Reg.HBX_CLASS_USED mac c) 17 0
def headUsed (s : State) (mac c : Nat) : Nat := fld s (Reg.HBX_CLASS_THRESH mac c) 31 18

/-- Set the shared cells of a class and of its port. -/
def setShared (s : State) (mac c cls port : Nat) : State :=
  setFld (setFld s (Reg.HBX_CLASS_USED mac c) 17 0 cls) (Reg.HBX_PORT_USED mac) 17 0 port

/-- Charge cells to a pool of the inlet (R78). -/
def chargeInlet (s : State) (mac c n : Nat) (p : Pool) : State :=
  match p with
  | .none => s
  | .control => modPort s mac fun q => { q with ctrlUsed := q.ctrlUsed + n }
  | .reserve => modPort s mac fun q => { q with inMin := tmod q.inMin c 0 (· + n) }
  | .shared => setShared s mac c (sharedUsed s mac c + n) (fld s (Reg.HBX_PORT_USED mac) 17 0 + n)
  | .headroom => setFld s (Reg.HBX_CLASS_THRESH mac c) 31 18 (headUsed s mac c + n)

/-- Report a class below XON once its usage has fallen (R82), and send XON (R58). -/
def xonCheck (s : State) (mac c : Nat) : State :=
  if flag s (Reg.HBX_CLASS_USED mac c) 31 &&
      sharedUsed s mac c + headUsed s mac c <
        fld s (Reg.HBX_CLASS_THRESH mac c) 17 0 - fld s (Reg.HBX_CLASS_PFC mac c) 15 0 then
    sendPfc (setFlag s (Reg.HBX_CLASS_USED mac c) 31 false) mac c 0
  else s

/-- Return a frame's cells to the pool they were charged from (R75, R78). -/
def releaseInlet (s : State) (mac c n : Nat) (p : Pool) : State :=
  match p with
  | .none => s
  | .control => modPort s mac fun q => { q with ctrlUsed := q.ctrlUsed - n }
  | .reserve => modPort s mac fun q => { q with inMin := tmod q.inMin c 0 (· - n) }
  | .shared => xonCheck (setShared s mac c (sharedUsed s mac c - n) (fld s (Reg.HBX_PORT_USED mac) 17 0 - n)) mac c
  | .headroom => xonCheck (setFld s (Reg.HBX_CLASS_THRESH mac c) 31 18 (headUsed s mac c - n)) mac c

/-! ## Admission -/

/-- The pool that admits a frame of `n` cells (R77, R78, R129). -/
def inletRule (s : State) (mac c n : Nat) (ctrl : Bool) : Option Pool :=
  if ctrl && (portOf s mac).ctrlUsed + n ≤ fld s (Reg.HBX_PORT_CTRL_RES mac) 15 0 then some .control
  else
    admitRule n (tgetD (portOf s mac).inMin c 0) (fld s (Reg.HBX_CLASS_CFG mac c) 15 0) (sharedUsed s mac c)
      (fld s (Reg.HBX_CLASS_THRESH mac c) 17 0) (exemptAt s (rxRole s mac) c) (fld s (Reg.HBX_PORT_USED mac) 17 0)
      (fld s (Reg.HBX_PORT_SHARE mac) 17 0) (inletFree s) (headUsed s mac c) (fld s (Reg.HBX_CLASS_PFC mac c) 29 16)
      (lossless s mac c)

/-- Put a frame at the tail of the inlet queue of a receive role. -/
def enterInlet (s : State) (f : InFrame) : State :=
  { s with pkt := { s.pkt with inlet := tmod s.pkt.inlet (rxRole s f.mac) [] fun l => l ++ [f] } }

/-- Report a class above XOFF, and send XOFF (R58, R82). -/
def xoff (s : State) (mac c : Nat) : State :=
  if flag s (Reg.HBX_CLASS_USED mac c) 31 then s
  else sendPfc (setFlag s (Reg.HBX_CLASS_USED mac c) 31 true) mac c (fld s (Reg.MAC_PFC_TX_TIME mac) 15 0)

/-- Admit or drop one received frame whole (R78); a frame of an unfilled role goes to broke (R124). -/
def admitInlet (s : State) (f : InFrame) : State :=
  let c := inletClass s f.mac f.bytes
  let ctrl := isControl s f.bytes
  let n := cellsOf f.bytes.length
  let src : FrameSrc := { kind := 0, num := f.mac }
  if s.pkt.unfilled.contains (rxRole s f.mac) then broke s 0x0B f.bytes src
  else
    match inletRule s f.mac c n ctrl with
    | none =>
      broke (count s (Reg.HBX_INLET_DROP f.mac c)) (if ctrl then 0x15 else 0x01) f.bytes src
    | some p =>
      let s := enterInlet (chargeInlet s f.mac c n p) { f with cls := c, ctrl := ctrl, pool := p, cells := n }
      if p = .headroom then xoff s f.mac c else s

/-- INLET_ADMISSION (R78): the oldest received frame of the MAC that waits. -/
def execInletAdmission (mac : Nat) (s : State) : Host.Outcome State Fault Refusal :=
  within (mac < macCount s.variant) (live s fun s =>
    match tgetD s.pkt.arrived mac [] with
    | [] => s
    | f :: rest => admitInlet { s with pkt := { s.pkt with arrived := tset s.pkt.arrived mac rest } } f)

/-! ## Thresholds -/

/-- Recompute the inlet and egress thresholds of every class (R79, R132), from the free cells as they stand. -/
def recompute (s : State) : State :=
  let fi := inletFree s
  let fe := egressFree s
  (List.range (macCount s.variant)).foldl (fun s n =>
    (List.range 8).foldl (fun s c =>
      let s := setFld s (Reg.HBX_CLASS_THRESH n c) 17 0 (threshold fi (fld s (Reg.HBX_CLASS_CFG n c) 27 24))
      let s := modPort s n fun p => { p with
        egrT := tset p.egrT c (threshold fe (fld s (Reg.DKL_EGR_CLASS n c) 27 24)) }
      xonCheck s n c) s) s

/-- THRESHOLD_RECOMPUTE (R79). -/
def execThresholdRecompute (s : State) : Host.Outcome State Fault Refusal := live s recompute

/-! ## Guarded configuration writes -/

/-- CFG_ERR of the inlet and of the egress region. -/
def hbxCfgErr (s : State) : State := hwSet s (Reg.HBX_CFG_STATUS) 0 7 0
def egrCfgErr (s : State) : State := hwSet s (Reg.DKL_EGR_STATUS) 0 7 0

/-- A write of a headbox register (R80): INLET_CELLS only in PROVISION; whatever would overcommit a region is ignored,
with CFG_ERR on the side that does not fit. -/
def writeHbx (s : State) (a : Nat) (v : Word) : State :=
  if a = Reg.HBX_BUF_CFG ∧ s.grade.cur ≠ .provision then s
  else
    let t := regWrite s a v
    if inletCells t < inletReserved t then (if rd t a = rd s a then t else hbxCfgErr s)
    else if egressRegion t < egressReserved t then (if rd t a = rd s a then t else egrCfgErr s)
    else t

/-- HBX_CFG_WRITE (R80): a write of a register of the headbox unit. -/
def execHbxCfgWrite (m : Master) (a : Nat) (v : Word) (s : State) : Host.Outcome State Fault Refusal :=
  within (unitOf a == 0x308) (onWrite s m fun s => writeHbx s a v)

/-- A write of an egress register of a port (R132). -/
def writeEgress (s : State) (a : Nat) (v : Word) : State :=
  let t := regWrite s a v
  if egressRegion t < egressReserved t then (if rd t a = rd s a then t else egrCfgErr s) else t

/-- The address is one of a port's egress settings (R132). -/
def isEgressCfg (a : Nat) : Bool := inRanges [(0x400, 0x407)] (unitOf a) && 0x300 ≤ offsetOf a && offsetOf a < 0x380

/-- EGRESS_CFG_WRITE (R132). -/
def execEgressCfgWrite (m : Master) (a : Nat) (v : Word) (s : State) : Host.Outcome State Fault Refusal :=
  within (isEgressCfg a) (onWrite s m fun s => writeEgress s a v)

end Sys2Proof.Machine
end

