-- ==== Sys2Proof/Machine/Parse.lean ====
section
/-! DEFINITION. The parse graph and the lookups of a pass (R83 to R108): the walk over the nodes of a slot, header
records, keys and their extracts, the tables, and the symmetric hash. -/

namespace Sys2Proof.Machine

/-! ## Nodes (R90) -/

/-- Word `w` of node `n` as committed. -/
def nodeWord (g : GraphSlot) (n w : Nat) : Word := tgetD g.liveNodes (20 * n + w) 0

/-- The poisoned word a visit of node `n` reads, if any: words 0 to 3 and its edges (R97). -/
def poisonedAt (g : GraphSlot) (n : Nat) : Option Nat :=
  ((List.range (4 + bits (nodeWord g n 0) 21 17)).map (20 * n + ·)).find? fun k => g.poison.contains k

/-- A field of `w` bits at bit offset `b` of the frame: present, beyond the frame's end, or beyond the window. -/
inductive FieldAt where
  | here (v : Nat)
  | beyondFrame
  | beyondWindow
  deriving DecidableEq, Repr

/-- Read a field for a pass whose window starts at byte `win` (R94). -/
def fieldAt (b : List Byte) (win bit w : Nat) : FieldAt :=
  match bitsAt b bit w with
  | none => .beyondFrame
  | some v => if 8 * (win + 512) < bit + w then .beyondWindow else .here v

/-- How a pass ends (R91, R94, R95, R97). -/
inductive ParseEnd where
  | done (recs : List HdrRec) (payload : Nat) (fragment trunc : Bool)
  | again (node off depth : Nat) (recs : List HdrRec)
  | poison (word : Nat)
  deriving DecidableEq, Repr

/-- The fragment test of a node (R91, R98): none beyond the window. A fragment word beyond the frame's end marks no
fragment (assumption 99, DESIGN CHOICE). -/
def fragAt (g : GraphSlot) (b : List Byte) (win node off : Nat) : Option Bool :=
  if bits (nodeWord g node 0) 16 16 = 0 then some false
  else
    let w3 := nodeWord g node 3
    match fieldAt b win (8 * (off + bits w3 31 24)) 16 with
    | .here v => some (v &&& bits w3 15 0 != 0)
    | .beyondFrame => some false
    | .beyondWindow => none

/-- The advance of a node: a number, none where its field is beyond the frame; outer none beyond the window. -/
def advAt (g : GraphSlot) (b : List Byte) (win node off : Nat) : Option (Option Nat) :=
  let w2 := nodeWord g node 2
  if bits (nodeWord g node 0) 23 22 = 0 then some (some (bits w2 9 0))
  else
    match fieldAt b win (8 * off + bits w2 31 21) (bits w2 20 18 + 1) with
    | .here v => some (some (v * 2 ^ bits w2 17 15 + bits w2 9 0))
    | .beyondFrame => some none
    | .beyondWindow => none

/-- The edge a selector value takes (R92). -/
def edgeOf (g : GraphSlot) (node v : Nat) : Option Nat :=
  ((List.range (bits (nodeWord g node 0) 21 17)).map fun k => nodeWord g node (4 + k)).findSome? fun w =>
    if bits w 15 0 = v then some (bits w 23 16) else none

/-- The next node: a node, the end of the parse, or beyond the window (R92, R96). -/
def nextAt (g : GraphSlot) (b : List Byte) (win node off : Nat) : Option (Option Nat) :=
  let w0 := nodeWord g node 0
  let w1 := nodeWord g node 1
  let dflt := if bits w0 15 15 = 1 then none else some (bits w0 7 0)
  if bits w0 21 17 = 0 then some dflt
  else
    match fieldAt b win (8 * off + bits w1 31 21) (bits w1 20 17 + 1) with
    | .here v => some (match edgeOf g node (v &&& bits w1 15 0) with | some n => some n | none => dflt)
    | .beyondFrame => some dflt
    | .beyondWindow => none

/-- The records after a node's own (R93). -/
def addRec (g : GraphSlot) (node off len depth : Nat) (recs : List HdrRec) : List HdrRec :=
  let w0 := nodeWord g node 0
  if bits w0 30 30 = 1 then
    let id := bits w0 29 24
    recs ++ [{ id := id, off := off, len := len, depth := depth, role := bits w0 13 11
               inst := (recs.filter fun r => r.id == id && r.depth == depth).length }]
  else recs

/-- The length of a record whose advance is not known (R93). -/
def openLen (node off : Nat) : Nat := (Config.openAdvance node off).toNat

/-- Walk the graph from a node (R91 to R98): at most `fuel` nodes more in this pass; `more` says that another pass is
allowed. Where the parse ends at a node, the record that R91 made there first stands, and so does a fragment mark. -/
def parseFrom (g : GraphSlot) (b : List Byte) (win : Nat) (more : Bool) :
    Nat → Nat → Nat → Nat → List HdrRec → ParseEnd
  | 0, _, off, _, recs => .done recs off false true
  | fuel + 1, node, off, depth, recs =>
    let w0 := nodeWord g node 0
    let again := fun (frag : Bool) (len : Nat) =>
      if more then ParseEnd.again node off depth recs else .done (addRec g node off len depth recs) off frag true
    match poisonedAt g node with
    | some w => .poison w
    | none =>
      if bits w0 31 31 = 0 then .done recs off false false
      else if bits w0 30 30 = 1 ∧ 32 ≤ recs.length then .done recs off false true
      else
        match fragAt g b win node off, advAt g b win node off with
        | none, _ => again false (openLen node off)
        | some frag, none => again frag (openLen node off)
        | some frag, some none => .done (addRec g node off (openLen node off) depth recs) off frag true
        | some true, some (some adv) => .done (addRec g node off adv depth recs) (off + adv) true false
        | some false, some (some adv) =>
          match nextAt g b win node off with
          | none => again false adv
          | some none => .done (addRec g node off adv depth recs) (off + adv) false false
          | some (some n) =>
            parseFrom g b win more fuel n (off + adv) (if bits w0 14 14 = 1 then min 3 (depth + 1) else depth)
              (addRec g node off adv depth recs)

/-! ## Fields and keys (R99 to R101, R107) -/

/-- The record a key addresses (R93). -/
def recOf (recs : List HdrRec) (id depth inst : Nat) : Option HdrRec :=
  recs.find? fun r => r.id == id && r.depth == depth && r.inst == inst

/-- A field of a record, or none where the record is absent or the field runs past the frame's end. -/
def recField (b : List Byte) (recs : List HdrRec) (id depth inst boff w : Nat) : Option Nat :=
  match recOf recs id depth inst with
  | some r => bitsAt b (8 * r.off + boff) w
  | none => none

/-- Bit `k` of the range vector (R107). -/
def rangeBit (s : State) (b : List Byte) (recs : List HdrRec) (k : Nat) : Bool :=
  let lo := rd s (Reg.TBL_RANGE k)
  let hi := rd s (Reg.TBL_RANGE k + 4)
  bits hi 31 31 == 1 &&
  match recField b recs (bits hi 29 24) (bits hi 23 22) (bits hi 21 20) (bits hi 10 0) (bits hi 19 16 + 1) with
  | some v => bits lo 15 0 ≤ v && v ≤ bits lo 31 16
  | none => false

/-- A metadata byte (R100). A number above 3 is accepted, and its value is free (assumption 98, DESIGN CHOICE). -/
def metaOf (f : InFrame) (frag trunc : Bool) (n : Nat) : Nat :=
  match n with
  | 0 => f.mac
  | 1 => f.cls
  | 2 => frag.toNat
  | 3 => trunc.toNat
  | m => (Config.openMeta m).toNat

/-- An extract: its width, its value and whether it is present (R100, R101). -/
def extract (s : State) (f : InFrame) (b : List Byte) (recs : List HdrRec) (frag trunc : Bool) (w : Word) :
    Nat × Nat × Bool :=
  match bits w 31 30 with
  | 0 =>
    let n := bits w 19 13 + 1
    match recField b recs (bits w 29 24) (bits w 23 22) (bits w 21 20) (bits w 10 0) n with
    | some v => (n, v, true)
    | none => (n, 0, false)
  | 1 => (32, ((List.range 32).map fun i => if rangeBit s b recs (32 * bits w 2 0 + i) then 2 ^ i else 0).sum, true)
  | _ =>
    (8, metaOf f frag trunc (bits w 7 0), true)

/-- Key bits of a stage kind. -/
def keyBits (kind : Nat) : Nat := match kind with | 0 => 128 | 1 => 384 | 2 => 160 | _ => 320

/-- A key: TABLE_ID, the PRESENT byte, the extracts in order, zero padding (R99). -/
def assemble (kind tid : Nat) (xs : List (Nat × Nat × Bool)) : Nat :=
  let present := ((List.range xs.length).map fun i =>
    match xs[i]? with | some (_, _, true) => 2 ^ i | _ => 0).sum
  let (v, n) := xs.foldl (fun (acc : Nat × Nat) x => (acc.1 * 2 ^ x.1 + x.2.1, acc.2 + x.1)) (tid * 256 + present, 16)
  v * 2 ^ (keyBits kind - n)

/-! ## Tables (R102 to R106) -/

/-- Exact-match lookup. -/
def emLookup (s : State) (wide : Bool) (key : Nat) : Option Nat :=
  (s.pkt.em.find? fun e => e.wide == wide && e.key == key).map EmEntry.result

/-- The entry matches: where its mask has a 1 (assumption 99, DESIGN CHOICE), and in the TABLE_ID byte whatever the mask
(R105). -/
def tcamHit (e : TcamEntry) (wide : Bool) (key : Nat) : Bool :=
  let w := keyBits (if wide then 3 else 2)
  let m := e.mask ||| (255 * 2 ^ (w - 8))
  e.wide == wide && key &&& m == e.key &&& m

/-- Ternary lookup: the lowest slot that matches. -/
def tcamLookup (s : State) (wide : Bool) (key : Nat) : Option Nat :=
  (s.pkt.tcam.find? fun p => tcamHit p.2 wide key).map fun p => p.2.result

/-- The longest of some routes. -/
def longest : List Route → Option Route
  | [] => none
  | r :: rs =>
    match longest rs with
    | some q => if r.len < q.len then some q else some r
    | none => some r

/-- Longest-prefix lookup in a VRF (R106). -/
def lpmLookup (s : State) (v6 : Bool) (vrf addr : Nat) : Option Nat :=
  let w := if v6 then 128 else 32
  (longest (s.pkt.routes.filter fun r =>
    r.v6 == v6 && r.vrf == vrf && r.addr / 2 ^ (w - r.len) == addr / 2 ^ (w - r.len))).map Route.result

/-- Word `w` of stage `i` as committed (R99). -/
def stageWord (g : GraphSlot) (i w : Nat) : Word := tgetD g.liveStages (10 * i + w) 0

/-- The poisoned word that stage `i` reads, if any (R97). -/
def poisonedStage (g : GraphSlot) (i : Nat) : Option Nat :=
  ((List.range (2 + bits (stageWord g i 0) 19 16)).map (5120 + 10 * i + ·)).find? fun k => g.poison.contains k

/-- The lookup of a stage: a hit's result, or none on a miss. -/
def lookup (s : State) (g : GraphSlot) (i : Nat) (f : InFrame) (b : List Byte) (recs : List HdrRec)
    (frag trunc : Bool) : Option Nat :=
  let w0 := stageWord g i 0
  let kind := bits w0 30 28
  let xs := (List.range (bits w0 19 16)).map fun k => extract s f b recs frag trunc (stageWord g i (2 + k))
  match kind with
  | 0 => emLookup s false (assemble 0 (bits w0 27 20) xs)
  | 1 => emLookup s true (assemble 1 (bits w0 27 20) xs)
  | 2 => tcamLookup s false (assemble 2 (bits w0 27 20) xs)
  | 3 => tcamLookup s true (assemble 3 (bits w0 27 20) xs)
  | 4 => lpmLookup s false (bits w0 27 20) ((xs.head?.map fun x => x.2.1).getD 0)
  | _ => lpmLookup s true (bits w0 27 20) ((xs.head?.map fun x => x.2.1).getD 0)

/-! ## The symmetric hash (R83 to R85) -/

/-- RSS settings of a function. -/
def rssOf (s : State) (fid : Nat) : Rss := tgetD s.pkt.rss fid {}

/-- Bytes of the frame from an offset, zeros beyond its end. -/
def padSlice (b : List Byte) (off n : Nat) : List Byte :=
  let x := slice b off n
  x ++ List.replicate (n - x.length) 0

/-- The halves of a tuple in order: the greater half comes second (R84). -/
def orderHalves (srcA dstA srcP dstP : List Byte) : List Byte :=
  if beNat dstA < beNat srcA ∨ (beNat dstA = beNat srcA ∧ beNat dstP < beNat srcP) then dstA ++ srcA ++ dstP ++ srcP
  else srcA ++ dstA ++ srcP ++ dstP

/-- The depth the tuple is taken from (R83). -/
def hashDepth (r : Rss) (recs : List HdrRec) : Nat :=
  if r.inner then
    recs.foldl (fun m x => if x.role == 2 || x.role == 3 then max m x.depth else m) 0
  else 0

/-- The hash input of a frame for a function (R83, R84); none for a frame to which R83 gives no tuple: one
whose IP records all lie deeper than the depth in question, or one with neither an IP nor a MAC record. -/
def hashInput (r : Rss) (b : List Byte) (recs : List HdrRec) (frag : Bool) : Option (List Byte) :=
  let d := hashDepth r recs
  match recs.find? fun x => x.depth == d && (x.role == 2 || x.role == 3) with
  | some ip =>
    let (n, o) := if ip.role = 2 then (4, 12) else (16, 8)
    let ports := if r.l4 && !frag then recs.find? fun x => x.depth == d && x.role == 4 else none
    some (match ports with
    | some p => orderHalves (padSlice b (ip.off + o) n) (padSlice b (ip.off + o + n) n)
        (padSlice b p.off 2) (padSlice b (p.off + 2) 2)
    | none => orderHalves (padSlice b (ip.off + o) n) (padSlice b (ip.off + o + n) n) [] [])
  | none =>
    if recs.any fun x => x.role == 2 || x.role == 3 then none
    else (recs.find? fun x => x.role == 1).map fun m =>
      orderHalves (padSlice b (m.off + 6) 6) (padSlice b m.off 6) [] []

/-- The Toeplitz hash of an input under a 40-byte key (R85). -/
def toeplitz (key input : List Byte) : Nat :=
  let k := beNat (padSlice key 0 40)
  let v := beNat input
  let n := 8 * input.length
  (List.range n).foldl (fun h i => if v / 2 ^ (n - 1 - i) % 2 = 1 then h ^^^ (k / 2 ^ (288 - i) % 2 ^ 32) else h) 0

/-- Hash h of a frame for a function; a free value where R83 names no tuple (assumption 98, DESIGN CHOICE). -/
def hashOf (s : State) (fid : Nat) (b : List Byte) (recs : List HdrRec) (frag : Bool) : Nat :=
  let r := rssOf s fid
  match hashInput r b recs frag with
  | some x => toeplitz r.key x
  | none => (Config.openHash fid b).toNat

/-- The size of a function's indirection table: 64 before the first RSS_INDIR_SET. -/
def indirN (r : Rss) : Nat := if r.n = 0 then 64 else r.n

/-- The local queue a hash selects (R86). -/
def indirQueue (s : State) (fid h : Nat) : Nat :=
  let r := rssOf s fid
  tgetD r.indir (h % indirN r) 0 % 1024

end Sys2Proof.Machine
end

