-- ==== Sys2Proof/Machine/Actions.lean ====
section
/-! DEFINITION. Action programs (R109 to R113): primitives, rewrites over the bytes of a frame, and the outcome the
programs of the four stages settle (R112). -/

namespace Sys2Proof.Machine

/-! ## Bytes under rewriting (R113) -/

/-- A byte of a frame under rewriting: its offset in the frame as parsed, or none for a pushed byte. -/
abbrev Tagged := List (Option Nat × Byte)

/-- A frame's bytes with their offsets. -/
def tagBytes (b : List Byte) : Tagged := (List.range b.length).zipWith (fun i x => (some i, x)) b

/-- Insert bytes ahead of the first original byte at or after offset `off`. -/
def insertAt (off : Nat) (new : List Byte) (t : Tagged) : Tagged :=
  let before := fun (p : Option Nat × Byte) => match p.1 with | some i => i < off | none => true
  let pre := t.takeWhile before
  -- pushed bytes at the tail of the prefix stand ahead of the anchor already
  pre ++ new.map (fun x => (none, x)) ++ t.drop pre.length

/-- Remove the original bytes of a range. -/
def removeRange (off len : Nat) (t : Tagged) : Tagged :=
  t.filter fun p => match p.1 with | some i => !(off ≤ i && i < off + len) | none => true

/-- Remove everything from byte 0 up to offset `stop`, with what was pushed among it, up to the last byte of that range
that is still there; bytes pushed behind it stay. -/
def removeThrough (stop : Nat) (t : Tagged) : Tagged :=
  let inside := fun (p : Option Nat × Byte) => match p.1 with | some i => i < stop | none => false
  (t.reverse.takeWhile fun p => !inside p).reverse

/-- Write `w` bits at bit offset `bit` of the frame as parsed; none where a byte is removed or absent. -/
def rewriteBits (bit w v : Nat) (t : Tagged) : Option Tagged :=
  let first := bit / 8
  let n := (bit + w + 7) / 8 - first
  let idx := (List.range n).map (first + ·)
  if idx.all fun i => t.any fun p => p.1 == some i then
    let shift := 8 * n - (bit - 8 * first) - w
    let old := beNat (idx.filterMap fun i => (t.find? fun p => p.1 == some i).map Prod.snd)
    let new := old - old / 2 ^ shift % 2 ^ w * 2 ^ shift + v % 2 ^ w * 2 ^ shift
    let bs := toBe n new
    some (t.map fun p => match p.1 with
      | some i => if first ≤ i ∧ i < first + n then (p.1, bs.getD (i - first) p.2) else p
      | none => p)
  else none

/-! ## Primitives (R110) -/

/-- Bits [hi:lo] of a primitive. -/
def dbits (w : DWord) (hi lo : Nat) : Nat := nbits w.toNat hi lo

/-- The reserved bits of each opcode are 0, and the opcode exists (R109, R110, R111). -/
def primOk (w : DWord) : Bool :=
  let z := fun hi lo => dbits w hi lo == 0
  match dbits w 63 59 with
  | 0x00 => z 57 0
  | 0x01 => true
  | 0x02 => z 46 36 && z 19 0
  | 0x03 => z 46 0
  | 0x04 => z 57 10
  | 0x05 => z 53 32 && dbits w 57 54 ≤ 4 && (dbits w 57 54 != 1 || dbits w 58 58 == 1 || z 2 0)
  | 0x06 => z 57 3
  | 0x07 => z 57 22
  | 0x08 => z 57 20
  | 0x09 => z 57 8 && 0x80 ≤ dbits w 7 0
  | 0x0A => z 57 3
  | 0x0B => z 57 0
  | _ => false

/-- A destination from TARGET and operand (R111). -/
def steerOf (target op : Nat) : Option Steer :=
  match target with
  | 0 => some (.host (op % 4096))
  | 1 => some (.core (nbits op 8 6) (nbits op 5 3) (nbits op 21 16))
  | 2 => some (.cipher (op % 2 ^ 22))
  | 3 => some (.wove (op % 2 ^ 20))
  | 4 => some (.port (op % 8))
  | _ => none

/-- A frame in the course of its programs: bytes, bytes pushed, the settled outcome, and whether the STEER in force is
a cipher STEER of the program that runs. -/
structure Run where
  t : Tagged
  gain : Nat := 0
  v : Verdict
  inCipher : Bool := false
  deriving DecidableEq, Repr

/-- A primitive that addresses an absent record (R113). -/
def noop (r : Run) : Run := { r with v := { r.v with noops := r.v.noops + 1 } }

/-- The destination is a cipher lane. -/
def isCipher (d : Steer) : Bool := match d with | .cipher _ => true | _ => false

/-- A STEER (R111, R112): the last one decides; the one that follows a cipher STEER of the same program says where the
frame goes after that lane, and belongs to it (assumption 100, DEDUCED). -/
def doSteer (r : Run) (d : Steer) : Run :=
  if r.inCipher then { r with v := { r.v with next := r.v.next ++ [d] }, inCipher := isCipher d }
  else { r with v := { r.v with steer := some d, next := [] }, inCipher := isCipher d }

/-- The bytes a PUSH inserts: its template, patched from ACT_DATA with SRC (R110). -/
def pushBytes (s : State) (w : DWord) (data : Nat) : List Byte :=
  let t := tgetD s.pkt.templates (dbits w 35 26) []
  if dbits w 58 58 = 1 then
    let off := dbits w 25 20
    (t.take off ++ toBe 12 data ++ t.drop (off + 12)).take t.length
  else t

/-- One primitive, with the records of the parse and the hit's ACT_DATA. -/
def runPrim (s : State) (recs : List HdrRec) (data : Nat) (w : DWord) (r : Run) : Run :=
  let src := dbits w 58 58 = 1
  let anchor := recOf recs (dbits w 57 52) (dbits w 51 50) (dbits w 49 48)
  match dbits w 63 59 with
  | 0x01 =>
    match anchor with
    | none => noop r
    | some a =>
      let n := dbits w 47 43 + 1
      let v := if src then data / 2 ^ dbits w 6 0 else dbits w 31 0
      match rewriteBits (8 * a.off + dbits w 42 32) n v r.t with
      | some t => { r with t := t }
      | none => noop r
  | 0x02 =>
    let new := pushBytes s w data
    let put := fun (off : Nat) =>
      if 128 < r.gain + new.length then { r with v := { r.v with drop := some 0x06 } }
      else { r with t := insertAt off new r.t, gain := r.gain + new.length, v := { r.v with pushed := true } }
    if dbits w 57 52 = 0 then put 0
    else
      match anchor with
      | none => noop r
      | some a => put (if dbits w 47 47 = 1 then a.off + a.len else a.off)
  | 0x03 =>
    match anchor with
    | none => noop r
    | some a =>
      if dbits w 47 47 = 1 then { r with t := removeThrough (a.off + a.len) r.t }
      else { r with t := removeRange a.off a.len r.t }
  | 0x04 => { r with v := { r.v with queue := some (if src then data % 1024 else dbits w 9 0) } }
  | 0x05 =>
    match steerOf (dbits w 57 54) (if src then data % 2 ^ 32 else dbits w 31 0) with
    | some d => doSteer r d
    | none => r
  | 0x06 =>
    if r.v.mirrors.length < 2 then { r with v := { r.v with mirrors := r.v.mirrors ++ [dbits w 2 0] } } else r
  | 0x07 => { r with v := { r.v with counts := r.v.counts ++ [if src then nbits data 53 32 else dbits w 21 0] } }
  | 0x08 => { r with v := { r.v with meters := r.v.meters ++ [if src then nbits data 83 64 else dbits w 19 0] } }
  | 0x09 => { r with v := { r.v with drop := some (dbits w 7 0) } }
  | 0x0A => { r with v := { r.v with tc := some (dbits w 2 0) } }
  | _ => r

/-- The slots of a program in order, until END or a drop (R112). -/
def runSlots (s : State) (recs : List HdrRec) (data : Nat) : List DWord → Run → Run
  | [], r => r
  | w :: ws, r =>
    if r.v.drop.isSome || dbits w 63 59 == 0x0B then r
    else runSlots s recs data ws (runPrim s recs data w r)

/-- One action program (0xFFFF and a program never loaded do nothing). -/
def runProg (s : State) (recs : List HdrRec) (prog data : Nat) (r : Run) : Run :=
  if r.v.drop.isSome then r
  else { runSlots s recs data (tgetD s.pkt.progs prog []) { r with inCipher := false } with inCipher := false }

/-- The four stages of a slot in order: look up, run the hit's program or MISS_PROG (R99, R102). ACT_DATA of a miss is
a free value. A poisoned stage word ends the frame (R97): the word, and where it stands. -/
def runStages (g : GraphSlot) (f : InFrame) (b : List Byte) (recs : List HdrRec) (frag trunc : Bool) :
    List Nat → Run → State → Option Nat × Run × State
  | [], r, s => (none, r, s)
  | i :: is, r, s =>
    match poisonedStage g i with
    | some w => (some w, r, s)
    | none =>
      if bits (stageWord g i 0) 31 31 = 0 then runStages g f b recs frag trunc is r s
      else
        match lookup s g i f b recs frag trunc with
        | some res =>
          runStages g f b recs frag trunc is (runProg s recs (res / 2 ^ 112 % 65536) (res % 2 ^ 96) r) s
        | none =>
          let (x, s) := free s
          let (y, s) := free s
          let data := (y.toNat * 2 ^ 64 + x.toNat) % 2 ^ 96
          runStages g f b recs frag trunc is (runProg s recs (bits (stageWord g i 1) 31 16) data r) s

/-- The frame a run leaves. -/
def runBytes (r : Run) : List Byte := r.t.map Prod.snd

end Sys2Proof.Machine
end

