-- ==== Sys2Proof/Machine/Trace.lean ====
section
/-! DEFINITION. Trace sources as shared operations (R495 to R501): the FIFO with its losses, and the record formats. -/

namespace Sys2Proof.Machine

/-- A trace source's record. -/
def srcOf (s : State) (n : Nat) : TraceSrc := tgetD s.obs.trace n {}

/-- Change a trace source. -/
def modSrc (s : State) (n : Nat) (f : TraceSrc → TraceSrc) : State :=
  { s with obs := { s.obs with trace := tmod s.obs.trace n {} f } }

/-- The source's trace is enabled (R497). -/
def traceOn (s : State) (n : Nat) : Bool := flag s (Reg.TRC_CTL n) 31

/-- The first four bytes of a record: TYPE, LEN, source and thread. -/
def recHead (typ len src thread : Nat) : List Byte := toLe 1 typ ++ toLe 1 len ++ toLe 2 (thread * 2 ^ 13 + src % 128)

/-- `n` bytes of free values. -/
def freeBytes (s : State) : Nat → List Byte × State
  | 0 => ([], s)
  | n + 1 =>
    let (v, s) := free s
    let (bs, s) := freeBytes s n
    (toLe 8 v.toNat ++ bs, s)

/-- The pc and privilege of a thread as a SYNC slot shows them. -/
def syncSlot (s : State) (src t : Nat) : List Byte :=
  let th := tgetD (tgetD s.cores.cores src {}).threads t {}
  toLe 8 ((tgetD th.ctx 0 0).toNat % 2 ^ 56 + (tgetD th.ctx 1 0).toNat % 4 * 2 ^ 62)

/-- The seven slots of a SYNC record. The record's layout gives its last slot to TH_6 and to TH_7 alike: which of the two
it shows is a free choice. -/
def syncSlots (s : State) (src : Nat) : List Byte × State :=
  let (v, s) := free s
  ((List.range 6).flatMap (syncSlot s src) ++ syncSlot s src (6 + v.toNat % 2), s)

/-- A SYNC record: the core cycle count is a free value; a pipe's slots are free values too. -/
def syncRec (s : State) (src : Nat) : List Byte × State :=
  let (cyc, s) := freeBytes s 1
  let (slots, s) := if src < 64 then syncSlots s src else freeBytes s 7
  (recHead 0x01 5 src 0 ++ [0, 0, 0, 0] ++ toLe 8 s.deviceTime.toNat ++ cyc ++ slots, s)

/-- A LOST record. -/
def lostRec (s : State) (src n : Nat) : List Byte :=
  recHead 0x06 1 src 0 ++ toLe 4 (min n (2 ^ 32 - 1)) ++ toLe 8 s.deviceTime.toNat

/-- Put records into a source's FIFO if they all fit; otherwise they are lost (R498). -/
def fifoPut (s : State) (n : Nat) (rs : List (List Byte)) (lostAfter : Nat) : State :=
  if (srcOf s n).fifo.length + rs.length ≤ 32 then
    modSrc s n fun t => { t with fifo := t.fifo ++ rs, lost := lostAfter, sinceSync := t.sinceSync + rs.length }
  else
    let s := count s (Reg.TRC_LOST n)
    let s := hwSet s (Reg.TRC_STATUS n) 0 7 0
    let s := modSrc s n fun t => { t with lost := t.lost + 1 }
    logErr s 0x0A01 0 0xA10 [n, (srcOf s n).lost]

/-- A source writes a record (R498): after losses a LOST and a SYNC record go ahead of it; a core source writes a SYNC
record after every 2^SYNC_LOG2 records. -/
def tracePush (s : State) (n : Nat) (r : List Byte) : State :=
  if !traceOn s n then s
  else
    let t := srcOf s n
    if 0 < t.lost then
      let (sy, s) := syncRec s n
      fifoPut s n [lostRec s n t.lost, sy, r] 0
    else
      let s := fifoPut s n [r] 0
      if n < 64 && 2 ^ fld s (Reg.TRC_CTL n) 27 24 ≤ (srcOf s n).sinceSync then
        let (sy, s) := syncRec s n
        modSrc (fifoPut s n [sy] 0) n fun t => { t with sinceSync := 0 }
      else s

/-- Where a packet ended, as PKT records code it. -/
def outcomeCode : Option Steer → Nat
  | some (.host _) => 0
  | some (.core ..) => 1
  | some (.cipher _) => 2
  | some (.wove _) => 3
  | some (.port _) => 4
  | none => 5

/-- A PKT record (R500): at the packet's retirement, where PKT_MODE and TRC_MATCH select it. -/
def pktRecord (s : State) (pipe : Nat) (f : InFrame) (dest : Option Steer) (reason : Nat) : State :=
  let n := 64 + pipe
  if fld s (Reg.TRC_CTL n) 23 22 = 1 ∧ fld s (Reg.TRC_MATCH n) 15 8 / 2 ^ f.mac % 2 = 1 ∧
      fld s (Reg.TRC_MATCH n) 7 0 / 2 ^ f.cls % 2 = 1 then
    tracePush s n (recHead 0x10 1 n 0 ++ toLe 1 (f.mac + f.cls * 16) ++ toLe 1 (outcomeCode dest) ++
      toLe 2 f.bytes.length ++ toLe 6 f.startAt ++ toLe 1 reason ++ toLe 1 f.passes)
  else s

/-- A TAG_PKT record (R496), when the tagged packet reaches its last stage. The ends of parse, lookup and actions inside
a pass are free values. -/
def tagRecord (s : State) (t : PktTag) (outcome reason : Nat) (started : Bool) : State :=
  let (inPass, s) := freeBytes s 2
  let d := fun (x : Nat) => if x = 0 then 2 ^ 32 - 1 else x - t.admitAt
  let s := tracePush s t.src (recHead 0x11 4 t.src 0 ++ toLe 1 (t.mac + t.cls * 16) ++ toLe 1 outcome ++ toLe 2 t.len ++
    toLe 8 t.admitAt ++ toLe 4 (d t.start) ++ inPass.take 12 ++ toLe 4 (d t.retire) ++ toLe 4 (d t.egress) ++
    toLe 4 (if started then s.deviceTime.toNat - t.admitAt else 2 ^ 32 - 1) ++ toLe 1 reason ++ List.replicate 19 0)
  modSrc s t.src fun x => { x with tagged := false }

end Sys2Proof.Machine
end

