-- ==== Sys2Proof/Machine/Deliver.lean ====
section
/-! DEFINITION. Delivery of frames and items as shared operations: host receive queues (R112, R338), core endpoints
with their redirections (R382 to R384, R390, R399, R424), cipher lanes (R111, R247), wove (R111), hairpin (R127) and
mirror copies (R116). -/

namespace Sys2Proof.Machine

/-- How a delivery ended: done, not now, or refused with a broke reason. -/
inductive Delivery where
  | done | waits | refused (reason : Nat)
  deriving DecidableEq, Repr

/-- The first number not in use of the last `k` of the `n` numbers that start at `v`, modulo `n`. -/
def seekFree (n : Nat) (used : Nat → Bool) (v : Nat) : Nat → Option Nat
  | 0 => none
  | k + 1 => if used ((v + (n - (k + 1))) % n) then seekFree n used v k else some ((v + (n - (k + 1))) % n)

/-- The least number at or after a free starting point, modulo `n`, that is not in use: a choice the spec leaves to
the device. -/
def pickFree (s : State) (n : Nat) (used : Nat → Bool) : Option Nat × State :=
  let (v, s) := free s
  (seekFree n used v.toNat n, s)

/-! ## Host receive queues -/

/-- Write bytes into the buffers of an entry, in order. -/
def writeSge (s : State) (fid : Nat) (pasid : Option Nat) : List (Nat × Nat) → List Byte → State
  | [], _ => s
  | (a, n) :: bs, d =>
    if d.isEmpty then s
    else writeSge (hostWrite s fid pasid a (d.take n)) fid pasid bs (d.drop n)

/-- Whether a queue counts as enabled for delivery (R355). -/
def rxEnabled (q : Queue) : Bool := q.type == 1 && (q.state == 1 || q.state == 2 || q.state == 3)

/-- The next fetched buffer of a receive queue. -/
def nextBuf (q : Queue) : Option QEntry := q.entries.find? fun e => e.op == 0x02 && e.state == .held

/-- Fill the next buffer of a queue with a frame and complete it (R338, R342, R343). -/
def fillBuf (s : State) (qid : Nat) (q : Queue) (e : QEntry) (b info : List Byte) (flags : Nat) : State :=
  let s := writeSge s q.fid q.pasid e.sge (b.take e.len)
  let fl := flags / 2 * 2 + (if e.len < b.length then 1 else 0)
  kickOf (flushQ (settleEntry s qid e.idx 0 0 (info ++ toLe 2 b.length) fl) qid) qid

/-- Deliver to a receive queue of a function: the first reason of R112 that applies, or the frame in the next buffer. In
PROVISION and STANDBY no receive buffer is filled (R517): the frame finds none (assumption 101, DESIGN CHOICE). Nor does
it where the translation of the buffer's address fails (R311), which leaves the descriptor for the next frame.
`named` is a queue named by an action, otherwise `viaHash` is the one the indirection table gives. -/
def deliverHost (s : State) (fid : Nat) (named : Option Nat) (viaHash : Nat) (b : List Byte)
    (info : Queue → List Byte × Nat) (translated : Bool) : Delivery × State :=
  let f := fnOf s fid
  if (linkRec s (linkOf s fid)).lost then (.refused 0x11, s)
  else if fnHalted s fid then (.refused 0x12, s)
  else if fnPresent s fid && (!f.bme || f.d3hot) then (.refused 0x10, s)
  else
    let none' : Delivery := .refused (if named.isSome then 0x0D else 0x02)
    match qidOf s fid (named.getD viaHash) with
    | none => (none', s)
    | some qid =>
      match tget s.wq.queues qid with
      | none => (none', s)
      | some q =>
        if !rxEnabled q then (none', s)
        else if q.state = 3 then (.refused 0x10, s)
        else
          match (if dataOn s && translated then nextBuf q else none) with
          | some e =>
            let (m, fl) := info q
            (.done, fillBuf s qid q e b m fl)
          | none => (.refused 0x03, modQ s qid fun q => { q with drops := min (q.drops + 1) (2 ^ 32 - 1) })

/-- The length of a received frame before anything rewrote it (R118). -/
def origLen (f : InFrame) : Nat := if f.orig = 0 then f.bytes.length else f.orig

/-- Bytes 0 to 7 and FLAGS of a receive completion (R342). -/
def rxMeta (f : InFrame) (hash : Nat) (frag trunc : Bool) (q : Queue) : List Byte × Nat :=
  if q.rxMeta = 1 then (toLe 4 hash ++ toLe 1 f.mac ++ toLe 1 f.cls ++ [0, 0], frag.toNat * 2 + trunc.toNat * 4 + 8)
  else (toLe 6 f.ts.1 ++ toLe 2 f.ts.2, frag.toNat * 2 + trunc.toNat * 4)

/-! ## Core endpoints -/

/-- A core's record, a thread's record. -/
def coreOf (s : State) (c : Nat) : Core := tgetD s.cores.cores c {}
def modCore (s : State) (c : Nat) (f : Core → Core) : State :=
  { s with cores := { s.cores with cores := tmod s.cores.cores c {} f } }
def threadOf (s : State) (c t : Nat) : Thread := tgetD (coreOf s c).threads t {}
def modThread (s : State) (c t : Nat) (f : Thread → Thread) : State :=
  modCore s c fun k => { k with threads := tmod k.threads t {} f }

/-- The items queued at an endpoint. -/
def epQueue (s : State) (c p : Nat) : List Item := tgetD (coreOf s c).eps p []
def setEp (s : State) (c p : Nat) (l : List Item) : State := modCore s c fun k => { k with eps := tset k.eps p l }

/-- STATE of a quire, and a core's failed mark (R393, R399). -/
def quireState (s : State) (q : Nat) : Nat := fld s (Reg.QUIRE_STATUS q) 2 0
def coreFailed (s : State) (c : Nat) : Bool := fld s (Reg.QUIRE_STATUS (c / 8)) 31 24 / 2 ^ (c % 8) % 2 == 1

/-- Items of an endpoint that threads of its core hold. -/
def heldAt (s : State) (c p : Nat) : Nat :=
  (((coreOf s c).threads.map fun t => (t.2.held.filter fun h => h.ep == p).length)).sum

/-- The core can take an item itself: its quire is RUNNING and it has not failed. -/
def coreTakes (s : State) (c : Nat) : Bool :=
  c / 8 < quireCount s.variant && quireState s (c / 8) == 2 && !coreFailed s c

/-- Where an item for an endpoint goes: a core, or nowhere with a broke reason for its frame (R390, R399, R424). A channel
of a quire that the variant lacks is absent (R112). -/
def resolveCore (s : State) (c p : Nat) : Option Nat × Nat :=
  let q := c / 8
  let cfg := Reg.DRY_DOMAIN_CFG q
  if quireCount s.variant ≤ q then (none, 0x0D)
  else if s.cores.redirected.contains q then
    let d := fld s cfg 10 8 * 8 + c % 8
    if p < 62 && coreTakes s d then (some d, 0) else (none, 0x0D)
  else if !domOpen s q then (none, 0x09)
  else
    match (coreOf s c).redirect with
    | some d => if p < 62 && coreTakes s d then (some d, 0) else (none, 0x0D)
    | none => if coreTakes s c then (some c, 0) else (none, 0x0D)

/-- Put an item at the tail of an endpoint, if it fits (R382). -/
def putItem (s : State) (c p : Nat) (words : List DWord) : Delivery × State :=
  match resolveCore s c p with
  | (none, r) => (.refused r, s)
  | (some d, _) =>
    let l := epQueue s d p
    if 64 ≤ l.length then (.waits, s)
    else
      let s := if s.cores.redirected.contains (c / 8) && (!(epQueue s c p).isEmpty || 0 < heldAt s c p) then
        count s (Reg.DRY_ORDER_BREAK) else s
      (.done, setEp s d p (l ++ [{ words := words, via := if d = c then none else some c }]))

/-- The header word of an item (R381). -/
def itemHeader (kind len srcKind src aux : Nat) : DWord :=
  BitVec.ofNat 64 (kind * 2 ^ 60 + len * 2 ^ 54 + srcKind * 2 ^ 44 + src * 2 ^ 32 + aux)

/-- The words of a FRAME item (R383). -/
def frameItem (pipe handle len : Nat) (f : InFrame) (frag trunc : Bool) : List DWord :=
  [itemHeader 1 3 1 pipe len,
   BitVec.ofNat 64 (handle * 2 ^ 32 + trunc.toNat * 512 + frag.toNat * 256 + f.cls * 16 + f.mac),
   BitVec.ofNat 64 (f.ts.1 * 2 ^ 16 + f.ts.2)]

/-- Hand a frame to a core endpoint: it keeps its inlet charge under a handle of the device's choice (R383, R384). -/
def deliverCore (s : State) (q c p pipe : Nat) (f : InFrame) (b : List Byte) (frag trunc : Bool) : Delivery × State :=
  match pickFree s 196608 (fun h => (tget s.cores.frames h).isSome) with
  | (none, s) => (.waits, s)
  | (some h, s') =>
    match putItem s' (8 * q + c) p (frameItem pipe h b.length f frag trunc) with
    | (.done, t) => (.done, { t with cores := { t.cores with
        frames := tset t.cores.frames h { bytes := b, mac := f.mac, cls := f.cls, pool := f.pool, cells := f.cells } } })
    | (.waits, _) => (.waits, s)
    | (.refused r, t) => (.refused r, t)

/-! ## Cipher lanes -/

/-- An SA's record. -/
def saOf (s : State) (n : Nat) : Sa := tgetD s.cph.sas n {}
def modSa (s : State) (n : Nat) (f : Sa → Sa) : State :=
  { s with cph := { s.cph with sas := tmod s.cph.sas n {} f } }

/-- The SA is one that sends: its SEQ counts up to HARD_SEQ (R244). -/
def saSends (a : Sa) : Bool := a.typ == 1 || a.typ == 3 || a.typ == 5 || a.typ == 6

/-- The SA is there: VALID, its record good, and WRITE_CNT not exhausted (R240, R243). -/
def saPresent (s : State) (n : Nat) : Bool :=
  let a := saOf s n
  a.valid && !s.cph.bad.contains n && a.writeCnt < 2 ^ 44 - 1

/-- The SA can be used: it is there, and its SEQ is below HARD_SEQ where it sends (R244). -/
def saUsable (s : State) (n : Nat) : Bool :=
  let a := saOf s n
  saPresent s n && !(saSends a && a.hard ≤ a.seq)

/-- JSTATE of a lane pair, and whether it is joined (R259). -/
def lanePairState (s : State) (k : Nat) : Nat := fld s (Reg.CPH_PAIR_STATUS k) 17 16
def lanePairJoined (s : State) (k : Nat) : Bool := 2 ≤ lanePairState s k

/-- The lane role of a MAC's port: receive roles 0 to 3, transmit roles 4 to 7 (R237). -/
def laneRole (s : State) (tx : Bool) (mac : Nat) : Nat :=
  let k := (if tx then 2 else 0) + groupOf mac
  2 * k + (if !lanePairJoined s k && 2 ≤ mac % 4 then 1 else 0)

/-- ROLE_OF of a lane. -/
def laneRoleOf (s : State) (n : Nat) : Nat := fld s (laneReg n) 11 8

/-- The ACTIVE lane that holds a role, and the lane that carries it: its holder, or the survivor of a joined pair
(R261). -/
def laneHolder (s : State) (role : Nat) : Option Nat :=
  (List.range 9).find? fun n => laneState s n == 3 && laneRoleOf s n == role
def laneCarrier (s : State) (role : Nat) : Option Nat :=
  match laneHolder s role with
  | some n => some n
  | none => if lanePairJoined s (role / 2) then laneHolder s (role / 2 * 2 + (1 - role % 2)) else none

/-- Frames handed out to a lane and not retired. -/
def laneLoad (s : State) (n : Nat) : Nat := (s.cph.frames.filter fun f => f.lane == some n).length

/-- The lane the inlet hands the next frame of a role to (R259): of a joined pair the one with fewer frames outstanding,
the even one on a tie. -/
def laneChoice (s : State) (role : Nat) : Option Nat :=
  if lanePairJoined s (role / 2) then
    match laneHolder s (role / 2 * 2), laneHolder s (role / 2 * 2 + 1) with
    | some a, some b => if laneLoad s b < laneLoad s a then some b else some a
    | some a, none => some a
    | none, b => b
  else laneHolder s role

/-- SEQ of a transmit SA reaches SOFT_SEQ: SA_SOFT is set and the index recorded (R244). -/
def saSoft (s : State) (n : Nat) : State :=
  wr (hwSet s (Reg.CPH_STATUS) 1 31 16) (Reg.CPH_SA_EVENT) (BitVec.ofNat 32 (n % 2 ^ 22))

/-- Take the next PN or sequence number of a transmit SA (R247): SOFT_SEQ reached sets SA_SOFT (R244). -/
def takeSeq (s : State) (n : Nat) : Nat × State :=
  let a := saOf s n
  let s := modSa s n fun a => { a with seq := a.seq + 1 }
  let s := { s with cph := { s.cph with changed := insNat n s.cph.changed } }
  (a.seq, if a.seq + 1 == a.soft then saSoft s n else s)

/-- A wove packet rides the lane of its port, sent and received alike (R237; assumption 108, DEDUCED): its bytes count
there; none where no lane carries the role (R261). -/
def rideLane (s : State) (tx : Bool) (mac len : Nat) : Option State :=
  (laneChoice s (laneRole s tx mac)).map fun l => count s (Reg.LANE_BYTES l) len

/-- Take a frame out of a lane inlet. -/
def leaveLane (s : State) (f : LaneFrame) : State :=
  { s with cph := { s.cph with frames := s.cph.frames.filter fun g => g.seq != f.seq } }

/-- Where a sample says that a frame of a lane was dropped (R118): the cipher lanes, with the frame's MAC; the pipe it came
from, and its length as it came. -/
def laneSrc (f : LaneFrame) : FrameSrc := { kind := 5, num := f.mac }
def lanePipe (f : LaneFrame) : Nat := (f.frame.bind InFrame.pipe).getD 0xFF
def laneOrig (f : LaneFrame) : Nat := (f.frame.map origLen).getD 0

/-- Send a frame of a lane to broke, as it stands (R252). A mirror copy that is not admitted has a reason of its own
(R116). -/
def brokeLane (s : State) (f : LaneFrame) (reason : Nat) : State :=
  let s := leaveLane s f
  match f.tx with
  | some t => brokeTx s f.mac reason { t with src := laneSrc f }
  | none => broke s (if f.mirror && reason != 0x0E then 0x0C else reason) f.bytes (laneSrc f) 0xFFFF (lanePipe f) (laneOrig f)

/-- A change of a lane pair waits for its epoch (R259, R262). -/
def lanePairBusy (s : State) (k : Nat) : Bool :=
  (tget s.cph.joins k).isSome || (tget s.cph.moves (2 * k)).isSome || (tget s.cph.moves (2 * k + 1)).isSome

/-- The frames of a role wait for an epoch: of the pair where it is joined or about to change, otherwise of the role. -/
def laneHeld (s : State) (role : Nat) : Bool :=
  if lanePairJoined s (role / 2) || (tget s.cph.joins (role / 2)).isSome then lanePairBusy s (role / 2)
  else (tget s.cph.moves role).isSome

/-- The pair that serves a frame. -/
def framePair (s : State) (f : LaneFrame) : Nat := laneRole s f.onTx f.mac / 2

/-- Hand one frame to its lane, with its PN (R247) and the SA record in force (R243); none while it waits: for an
epoch, for room in the merge, or for the SA to be fetched (R241). -/
def handOne (s : State) (f : LaneFrame) : Option State :=
  let role := laneRole s f.onTx f.mac
  let k := role / 2
  if laneHeld s role ||
      8192 ≤ (s.cph.frames.filter fun g => g.lane.isSome && framePair s g == k).length then none
  else
    match laneChoice s role with
    | none => if s.cph.unfilled.contains role then some (brokeLane s f 0x0B) else none
    | some l =>
      if !saUsable s f.sa then some (brokeLane s f 0x0D)
      else if !s.cph.cached.contains f.sa then none
      else
        let a := saOf s f.sa
        let (pn, s) := if saSends a then takeSeq s f.sa else (0, s)
        let s := pmuEvent s (0x600 + l) 0x5300
        some { s with cph := { s.cph with frames := s.cph.frames.map fun g =>
          if g.seq = f.seq then { g with lane := some l, pn := pn, rec' := a } else g } }

/-- Hand out the frames of the lane inlets in inlet order; a frame that waits holds those behind it in its role. -/
def handOut (s : State) : State :=
  ((s.cph.frames.filter fun f => f.lane.isNone).foldl (fun p f =>
    let k := laneRole p.2 f.onTx f.mac
    if p.1.contains k then p
    else match handOne p.2 f with
      | some t => (p.1, t)
      | none => (k :: p.1, p.2)) (([] : List Nat), s)).2

/-- Put a frame at a lane inlet. -/
def toLane (s : State) (f : LaneFrame) : State :=
  handOut { s with cph := { s.cph with
    frames := s.cph.frames ++ [{ f with seq := s.cph.nextSeq }], nextSeq := s.cph.nextSeq + 1 } }

/-! ## Wove -/

/-- The connection takes packets: it exists and is not in ERROR (R201). -/
def connTakes (s : State) (n : Nat) : Bool :=
  match tget s.wove.conns n with
  | some c => c.state != 3
  | none => false

/-! ## One frame to its destination -/

/-- The port a chain of STEERs ends at, and the lane inlet it rides to: a frame that an SA protects on its way to a port
takes the transmit lane of that port, any other the receive lane of its own (R237, R249; assumption 102, DEDUCED). -/
def laneSide (s : State) (mac sa : Nat) (next : List Steer) : Bool × Nat :=
  match saSends (saOf s sa), next with
  | true, .port m :: _ => if m < macCount s.variant then (true, m) else (false, mac)
  | _, _ => (false, mac)

/-- Deliver a frame with a verdict to a destination (R111, R112). `b` is its bytes without FCS, `cls` its class for
transmit, `mirror` marks a copy. -/
def deliverTo (s : State) (d : Steer) (f : InFrame) (v : Verdict) (b : List Byte) (cls pipe : Nat)
    (translated mirror : Bool) : Delivery × State :=
  match d with
  | .host fid =>
    let h := hashOf s fid (dropFcs f.bytes) f.recs v.fragment
    deliverHost s fid (if mirror then none else v.queue) (indirQueue s fid h) b (rxMeta f h v.fragment v.trunc) translated
  | .core q c p =>
    deliverCore s q c p pipe (if mirror then { f with pool := .none, cells := 0 } else f) b v.fragment v.trunc
  | .cipher sa =>
    let next := if mirror then [] else v.next
    let (onTx, mac) := laneSide s f.mac sa next
    if saUsable s sa then
      (.done, toLane s { seq := 0, onTx := onTx, mac := mac, sa := sa, bytes := b, mirror := mirror
                         frame := some { f with pool := .none, cells := 0, tag := none, verdict := some v }
                         work := .program next cls (if mirror then none else v.queue) })
    else (.refused 0x0D, s)
  | .wove c =>
    if connTakes s c && beAt b (v.payload + 4) 4 % 2 ^ 20 == c then (.done, s) else (.refused 0x0D, s)
  | .port m =>
    if m < macCount s.variant then
      if v.pushed && maxFrame s m < b.length + 4 then (.refused 0x06, s)
      else
        (.done, sendTo s m { bytes := withFcs b, cls := cls, src := { kind := 0, num := f.mac }, canWait := false,
                             mirror := mirror, orig := origLen f, tag := if mirror then none else f.tag.map fun src =>
                               { src := src, mac := f.mac, cls := f.cls, len := b.length, admitAt := f.at'
                                 start := f.startAt, retire := s.deviceTime.toNat } })
    else (.refused 0x0D, s)

/-- The FID a broke sample names for a destination. -/
def destFid (s : State) (d : Option Steer) (mac : Nat) : Nat :=
  match d with
  | some (.host fid) => fid
  | some _ => 0xFFFF
  | none => fld s (Reg.HBX_PORT_FID mac) 11 0

end Sys2Proof.Machine
end

