-- ==== Sys2Proof/Machine/Pipes.lean ====
section
/-! DEFINITION. The pipes (R88 to R130): the start of a pass, retirement, samples, joining, spare takeover and
re-entry, and admission at the transmit inlet with MACsec (R245). -/

namespace Sys2Proof.Machine

/-! ## The inlet queue of a pipe -/

/-- The inlet queue a role serves: its own, or the even role's of a joined pair. -/
def inletKey (s : State) (role : Nat) : Nat := if pairJoined s (role / 2) then role / 2 * 2 else role

/-- The frames of an inlet queue. -/
def inletOf (s : State) (k : Nat) : List InFrame := tgetD s.pkt.inlet k []
def setInlet (s : State) (k : Nat) (l : List InFrame) : State :=
  { s with pkt := { s.pkt with inlet := tset s.pkt.inlet k l } }

/-- Started and not retired. -/
def started (f : InFrame) : Bool := f.pipe.isSome

/-- The pair acts as one: it is joined, or about to change (R121). -/
def pairWhole (s : State) (k : Nat) : Bool := pairJoined s k || (tget s.pkt.joins k).isSome

/-- A reorder epoch is awaited: by the pair, or by the role of a single pipe (R121, R126). -/
def epochDue (s : State) (role : Nat) : Bool :=
  let k := role / 2
  if pairWhole s k then
    (tget s.pkt.joins k).isSome || (tget s.pkt.moves (2 * k)).isSome || (tget s.pkt.moves (2 * k + 1)).isSome
  else (tget s.pkt.moves role).isSome

/-- The passes of a role in progress on a pipe. -/
def passesOn (s : State) (k pipe : Nat) : Nat :=
  ((inletOf s k).filter fun f => f.pipe == some pipe).length + ((txPasses s k).filter fun x => x.1 == pipe).length

/-- The split hands out frames: no change is pending, and the merge has room (R120, R121). -/
def splitRuns (s : State) (role : Nat) : Bool :=
  let k := inletKey s role
  !epochDue s role && ((inletOf s k).filter fun f => f.verdict.isSome).length + (txPasses s k).length < 8192

/-- The member of a joined pair the split sends the next frame to (R120): fewer passes outstanding, even on a tie. -/
def splitChoice (s : State) (k : Nat) : Option Nat :=
  match holderOf s (2 * k), holderOf s (2 * k + 1) with
  | some p, some q => if passesOn s (2 * k) q < passesOn s (2 * k) p then some q else some p
  | some p, none => some p
  | none, q => q

/-- A frame that waits for its first pass may be started by the pipe. -/
def mayStart (s : State) (pipe role : Nat) : Bool :=
  splitRuns s role && (!pairJoined s (role / 2) || splitChoice s (role / 2) == some pipe)

/-- The frame waits for a pass of this pipe: fresh and startable, or recirculated or replayed to it. -/
def eligible (pipe : Nat) (fresh : Bool) (f : InFrame) : Bool :=
  f.verdict.isNone && (match f.pipe with | none => fresh | some p => p == pipe)

/-- The place of the first frame with a property. -/
def indexOf (p : InFrame → Bool) : List InFrame → Nat → Option Nat
  | [], _ => none
  | f :: fs, i => if p f then some i else indexOf p fs (i + 1)

/-- The next frame by R128: a replayed one first; then a control frame once in 100 slots; EXEMPT classes and other
classes within RES_SLOTS; then strictly by class. -/
def chooseStart (s : State) (pipe role : Nat) (l : List InFrame) : Option Nat :=
  let sl := tgetD s.pkt.slots pipe {}
  let ok := eligible pipe (mayStart s pipe role)
  let res := fun c => fld s (Reg.PIPE_INLET_CLASS pipe c) 25 16
  let inClass := fun (p : Nat → Bool) =>
    ([7, 6, 5, 4, 3, 2, 1, 0].filter p).findSome? fun c => indexOf (fun f => ok f && f.cls == c) l 0
  let withRes := fun c => tgetD sl.used c 0 < res c
  match indexOf (fun f => ok f && f.pipe.isSome && f.passes == 0) l 0 with
  | some i => some i
  | none =>
    match (if sl.ctrl = 0 then indexOf (fun f => ok f && f.ctrl) l 0 else none) with
    | some i => some i
    | none =>
      match inClass fun c => (exemptCells s pipe c).isSome && withRes c with
      | some i => some i
      | none =>
        match inClass fun c => !(exemptCells s pipe c).isSome && withRes c with
        | some i => some i
        | none => inClass fun _ => true

/-- Count a start slot (R128): of a control frame or not, of a class, recirculation or not. -/
def useSlot (s : State) (pipe : Nat) (ctrl : Bool) (cls : Nat) (recirc : Bool) : State :=
  { s with pkt := { s.pkt with slots := tmod s.pkt.slots pipe {} fun sl =>
    let sl := { sl with in100 := sl.in100 + 1, in1024 := sl.in1024 + 1, ctrl := sl.ctrl + (if ctrl then 1 else 0)
                        used := tmod sl.used cls 0 (· + 1), recirc := sl.recirc + recirc.toNat }
    let sl := if 100 ≤ sl.in100 then { sl with in100 := 0, ctrl := 0 } else sl
    if 1024 ≤ sl.in1024 then { sl with in1024 := 0, used := [], recirc := 0 } else sl } }

/-- Send an inlet frame to broke and release its cells. -/
def brokeInlet (s : State) (f : InFrame) (reason pipe : Nat) (b : List Byte) : State :=
  let s := broke (releaseInlet s f.mac f.cls f.cells f.pool) reason b { kind := 0, num := f.mac }
    (destFid s (f.verdict.bind Verdict.steer) f.mac) pipe (origLen f)
  let s := pktRecord s pipe f none reason
  match f.tag with
  | some src => tagRecord s { src := src, mac := f.mac, cls := f.cls, len := b.length, admitAt := f.at', start := f.startAt
                              retire := s.deviceTime.toNat } 5 reason false
  | none => s

/-- The UDP or TCP destination port of a frame's L4 record at depth 0. -/
def l4Port (b : List Byte) (recs : List HdrRec) (frag : Bool) : Option Nat :=
  if frag then none
  else (recs.find? fun r => r.role == 4 && r.depth == 0).map fun r => beAt b (r.off + 2) 2

/-- The outcome of a pass on frame `f` in state `s` (R91 to R113): the frame after it, or a poisoned word. The frame's end
is taken ahead of its FCS (R96; assumption 99, DESIGN CHOICE). A pass beyond the third parses nothing (R95). -/
def runPass (s : State) (g : GraphSlot) (f : InFrame) : (InFrame ⊕ Nat) × State :=
  let b := dropFcs f.bytes
  match (if 3 < f.passes then ParseEnd.done f.recs f.off false true
    else parseFrom g b (if f.passes ≤ 1 then 0 else f.off) (f.passes < 3) 48 f.node f.off f.depth f.recs) with
  | .poison w => (.inr w, s)
  | .again n o d rs => (.inl { f with node := n, off := o, depth := d, recs := rs }, s)
  | .done rs pay frag trunc =>
    let r : Run := { t := tagBytes b, v := { bytes := b, fragment := frag, trunc := trunc, payload := pay
                                             udp := l4Port b rs frag } }
    match runStages g f b rs frag trunc [0, 1, 2, 3] r s with
    | (some w, _, s) => (.inr w, s)
    | (none, r, s) => (.inl { f with recs := rs, verdict := some { r.v with bytes := runBytes r } }, s)

/-- A word of the pipe's slot is found uncorrectable: it keeps its poison (R97). -/
def poisonWord (s : State) (slot : Nat) (w : Option Nat) : State :=
  match w with
  | some w => { s with pkt := { s.pkt with graphs := tmod s.pkt.graphs slot {} fun g =>
      { g with poison := insNat w g.poison } } }
  | none => s

/-- The parse-graph slot of a frame's next pass (R89): the one its pipe selects as its first pass starts. -/
def passSlot (s : State) (pipe : Nat) (f : InFrame) : Nat :=
  if f.passes = 0 then fld s (Reg.PIPE_GRAPH_SEL pipe) 1 0 else f.slot

/-- Start the pass of frame `i` of an inlet queue. -/
def startPass (s : State) (pipe k i : Nat) (f : InFrame) (badWord : Option Nat) : State :=
  let slot := passSlot s pipe f
  let recirc := f.passes != 0
  let s := pmuEvent s (0x310 + pipe) 0x5200
  let s := if recirc then pmuEvent s (0x310 + pipe) 0x5201 else s
  let s := poisonWord (useSlot s pipe f.ctrl f.cls recirc) slot badWord
  let src := 64 + pipe
  let tagIt := (srcOf s src).owed && !(srcOf s src).tagged && !recirc && f.tag.isNone
  let s := if tagIt then modSrc s src fun t => { t with owed := false, tagged := true } else s
  let fresh := f.pipe.isNone
  let f := { f with
    pipe := some pipe, passes := f.passes + 1, slot := slot, tag := if tagIt then some src else f.tag
    seq := if fresh then s.pkt.startSeq else f.seq, startAt := if recirc then f.startAt else s.deviceTime.toNat }
  let s := { s with pkt := { s.pkt with startSeq := s.pkt.startSeq + fresh.toNat } }
  match runPass s (tgetD s.pkt.graphs slot {}) f with
  | (.inl f', s) => setInlet s k (modAt (inletOf s k) i fun _ => f')
  | (.inr w, s) =>
    let s := logErr s 0x0303 2 (0x310 + pipe) [slot, w]
    brokeInlet (setInlet s k ((inletOf s k).eraseIdx i)) f 0x13 pipe (dropFcs f.bytes)

/-- Change the frames of a transmit role, wherever they are queued. -/
def mapRole (s : State) (role : Nat) (g : TxFrame → TxFrame) : State :=
  ((List.range (macCount s.variant)).filter fun m => txRole s m == role).foldl (fun s m =>
    modPort s m fun p => { p with queues := tmap p.queues fun _ l => l.map g }) s

/-- The frame admitted first among some, the first of those on a tie. -/
def earliest (l : List (Nat × TxFrame)) : Option (Nat × TxFrame) :=
  l.foldl (fun m x => match m with
    | some y => if x.2.enq < y.2.enq then some x else m
    | none => some x) none

/-- The first frame of each class queue of a transmit role that waits for its pass, with its MAC. -/
def txCandidates (s : State) (role : Nat) : List (Nat × TxFrame) :=
  ((List.range (macCount s.variant)).filter fun m => txRole s m == role).flatMap fun m =>
    (List.range 8).filterMap fun c =>
      ((queueOf (portOf s m) c).find? fun f => !f.passed && f.pass.isNone).map fun f => (m, f)

/-- The next frame of a transmit pipe by R128: a control frame once in 100 slots; EXEMPT classes and other classes within
RES_SLOTS; then strictly by class. -/
def chooseTx (s : State) (pipe role : Nat) : Option (Nat × TxFrame) :=
  let sl := tgetD s.pkt.slots pipe {}
  let l := txCandidates s role
  let inClass := fun (p : Nat → Bool) =>
    ([7, 6, 5, 4, 3, 2, 1, 0].filter p).findSome? fun c => earliest (l.filter fun x => x.2.cls == c)
  let withRes := fun c => tgetD sl.used c 0 < fld s (Reg.PIPE_INLET_CLASS pipe c) 25 16
  if !mayStart s pipe role then none
  else
    ((if sl.ctrl = 0 then earliest (l.filter fun x => isControl s x.2.bytes) else none).or
      (inClass fun c => (exemptCells s pipe c).isSome && withRes c)).or
    ((inClass fun c => !(exemptCells s pipe c).isSome && withRes c).or (inClass fun _ => true))

/-- One start of a transmit pipe (R120, R128). The spec gives it no programs of its own, so the pass leaves the frame as
it is (assumption 105, DESIGN CHOICE). -/
def txPassStart (s : State) (pipe role : Nat) : State :=
  match chooseTx s pipe role with
  | none => s
  | some (mac, f) =>
    let s := pmuEvent (useSlot s pipe (isControl s f.bytes) f.cls false) (0x310 + pipe) 0x5200
    let n := s.pkt.startSeq
    let s := { s with pkt := { s.pkt with startSeq := n + 1 } }
    let begin' := fun (l : List TxFrame) =>
      modAt l (l.takeWhile fun x => x.passed || x.pass.isSome).length fun x => { x with pass := some (pipe, n) }
    modPort s mac fun p => { p with queues := tmod p.queues f.cls [] begin' }

/-- Retire the next frame of a transmit role in the order of starts, if it is this pipe's (R104, R120). -/
def txRetire (s : State) (pipe role : Nat) : State :=
  let l := txPasses s role
  match l.foldl (fun (m : Option (Nat × Nat)) x => match m with
    | some y => if x.2 < y.2 then some x else m
    | none => some x) none with
  | none => s
  | some x =>
    if x.1 = pipe then mapRole s role fun f => if f.pass = some x then { f with pass := none, passed := true } else f
    else s

/-- One start of a pipe (R128); a recirculation pass beyond the quota goes to broke. -/
def passStart (s : State) (pipe : Nat) (badWord : Option Nat) : State :=
  let role := roleOf s pipe
  if pipeState s pipe != 3 || 8 ≤ role then s
  else if 4 ≤ role then txPassStart s pipe (inletKey s role)
  else
    let k := inletKey s role
    let l := inletOf s k
    match chooseStart s pipe role l with
    | none => s
    | some i =>
      match l[i]? with
      | none => s
      | some f =>
        if f.passes != 0 && 256 ≤ (tgetD s.pkt.slots pipe {}).recirc then
          brokeInlet (count (setInlet s k (l.eraseIdx i)) (Reg.PIPE_RECIRC_DROP pipe)) f 0x04 pipe (dropFcs f.bytes)
        else startPass s pipe k i f badWord

/-- PASS_START (R128). -/
def execPassStart (pipe : Nat) (badWord : Option Nat) (s : State) : Host.Outcome State Fault Refusal :=
  within (pipe < 10) (live s fun s => passStart s pipe badWord)

/-! ## Retirement -/

/-- The colour of a meter for a packet of `n` bytes (R115), and the meter after it: 0 green, 1 yellow, 2 red. Levels
are kept in bytes × 2 × 10^9, the ticks of a second. -/
def meterRun (m : Meter) (now n : Nat) : Nat × Meter :=
  let unit := 2 * giga
  let tc := min (m.cbs * unit) (m.tc + m.cir * (now - m.last))
  let tp := min (m.pbs * unit) (m.tp + m.pir * (now - m.last))
  let m := { m with tc := tc, tp := tp, last := now }
  if tp < n * unit then (2, m)
  else if tc < n * unit then (1, { m with tp := tp - n * unit })
  else (0, { m with tc := tc - n * unit, tp := tp - n * unit })

/-- Run the meters of a frame in order: whether one is red, and how many are yellow. -/
def runMeters (s : State) (n : Nat) : List Nat → Bool × Nat × State
  | [] => (false, 0, s)
  | m :: ms =>
    let (c, mt) := meterRun (tgetD s.pkt.meters m {}) s.deviceTime.toNat n
    let s := { s with pkt := { s.pkt with meters := tset s.pkt.meters m mt } }
    let (red, y, s) := runMeters s n ms
    (red || c == 2, y + (if c = 1 then 1 else 0), s)

/-- One mirror copy (R116): to the session's destination, truncated; a copy not admitted goes to broke. -/
def mirrorCopy (s : State) (f : InFrame) (v : Verdict) (cls pipe sess : Nat) : State :=
  match tget s.pkt.mirrors sess with
  | none => s
  | some (d, trunc) =>
    let b := v.bytes.take trunc
    match deliverTo s d f v b cls pipe true true with
    | (.done, t) => t
    | _ => broke s 0x0C b { kind := 0, num := f.mac } 0xFFFF pipe (origLen f)

/-- The frame's destination: its STEER, wove where the device recognises a wove or RoCEv2 packet (WOV_CFG, R232), otherwise the port's
default function (R112). -/
def destOf (s : State) (f : InFrame) (v : Verdict) : Option Steer :=
  match v.steer with
  | some d => some d
  | none =>
    if flag s (Reg.WOV_CFG) 0 && (v.udp == some (fld s (Reg.WOV_CFG) 31 16) ||
        (flag s (Reg.WOV_CFG) 1 && v.udp == some 4791)) then none
    else some (.host (fld s (Reg.HBX_PORT_FID f.mac) 11 0))

/-- The frame came without the SecTAG its port requires (R246). -/
def lacksSecTag (s : State) (f : InFrame) : Bool :=
  flag s (Reg.CPH_PORT_CFG f.mac) 30 && !f.opened && !([0x88E5, 0x888E, 0x8808].contains (beAt f.bytes 12 2))

/-- Retire a frame with its verdict (R114): counters, meters, mirrors, then its delivery or broke. None while its
destination cannot take it (R382). -/
def retire (s : State) (pipe : Nat) (f : InFrame) (v : Verdict) (translated : Bool) : Option State :=
  let s := v.counts.foldl (fun s c => { s with pkt := { s.pkt with counters := tmod s.pkt.counters c 0 (· + 1) } }) s
  let (red, y, s) := runMeters s f.bytes.length v.meters
  let s := if v.trunc then count s (Reg.PIPE_PARSE_TRUNC pipe) else s
  let s := if v.fragment then count s (Reg.PIPE_FRAGMENTS pipe) else s
  let s := if 0 < v.noops then count s (Reg.PIPE_ACT_NOOP pipe) v.noops else s
  let cls := v.tc.getD f.cls - min y 1
  let s := v.mirrors.foldl (fun s m => mirrorCopy s f v cls pipe m) s
  let gone := fun (r : Nat) => some (brokeInlet s { f with verdict := some v } r pipe v.bytes)
  let finish := fun (s : State) (d : Option Steer) =>
    let s := match d with
      | some (.core ..) => s
      | _ => releaseInlet s f.mac f.cls f.cells f.pool
    let s := pktRecord s pipe f (some (d.getD (.wove 0))) 0
    match f.tag, d with
    | some _, some (.port _) => s
    | some src, d => tagRecord s { src := src, mac := f.mac, cls := f.cls, len := v.bytes.length, admitAt := f.at'
                                   start := f.startAt, retire := s.deviceTime.toNat }
        (outcomeCode (some (d.getD (.wove 0)))) 0 false
    | none, _ => s
  match v.drop with
  | some r => gone r
  | none =>
    if red then gone 0x05
    else if lacksSecTag s f then gone 0x0E
    else
      match destOf s f v with
      | none => some (finish s none)
      | some d =>
        match deliverTo s d f v v.bytes cls pipe translated false with
        | (.done, s) => some (finish s (some d))
        | (.waits, _) => none
        | (.refused r, s) =>
          some (brokeInlet s { f with verdict := some v } r pipe v.bytes)

/-- The oldest started frame of a list, by its place in start order. -/
def oldestStarted (l : List InFrame) : Option InFrame :=
  (l.filter started).foldl (fun m f => match m with
    | some g => if f.seq < g.seq then some f else m
    | none => some f) none

/-- Retire the next frame in order, if it is this pipe's and its pass is complete (R104, R120). -/
def frameRetire (s : State) (pipe : Nat) (translated : Bool) : State :=
  let role := roleOf s pipe
  if pipeState s pipe != 3 || 8 ≤ role then s
  else if 4 ≤ role then txRetire s pipe (inletKey s role)
  else
    let k := inletKey s role
    match oldestStarted (inletOf s k) with
    | some f =>
      match f.verdict with
      | some v =>
        if f.pipe == some pipe then
          (retire (setInlet s k ((inletOf s k).filter fun g => !(started g && g.seq == f.seq))) pipe f v translated).getD s
        else s
      | none => s
    | none => s

/-- FRAME_RETIRE (R114). -/
def execFrameRetire (pipe : Nat) (translated : Bool) (s : State) : Host.Outcome State Fault Refusal :=
  within (pipe < 10) (live s fun s => frameRetire s pipe translated)

/-! ## Samples -/

/-- 64-bit words of a byte string, little-endian. -/
def wordsOf : Nat → List Byte → List DWord
  | 0, _ => []
  | n + 1, b => BitVec.ofNat 64 (leAt b 0 8) :: wordsOf n (b.drop 8)

/-- Deliver the oldest sample to its target, if it fits there now (R118). -/
def sampleDeliver (s : State) : State :=
  match s.pkt.samples with
  | [] => s
  | x :: rest =>
    let cfg := Reg.BRK_SAMPLE_CFG
    if !flag s cfg 31 then s
    else
      let popped := fun (s : State) => { s with pkt := { s.pkt with samples := rest } }
      if flag s cfg 30 then
        let (aux, s') := free s
        let n := ceilDiv x.bytes.length 8
        let words := itemHeader 2 (n + 1) 2 0 (aux.toNat % 2 ^ 32) :: wordsOf n x.bytes
        match putItem s' (fld s cfg 15 13 * 8 + fld s cfg 12 10) (fld s cfg 5 0) words with
        | (.done, t) => popped t
        | _ => s
      else
        let (m, s') := freeBytes s 1
        match deliverHost s' 0 (some (fld s cfg 9 0)) 0 x.bytes (fun q => (m, if q.rxMeta = 1 then 8 else 0)) true with
        | (.done, t) => popped t
        | _ => s

/-- SAMPLE_DELIVER (R118). -/
def execSampleDeliver (s : State) : Host.Outcome State Fault Refusal := live s sampleDeliver

/-! ## Pipe registers -/

/-- A write of PIPE_GRAPH_SEL: to either member of a joined pair it sets both. -/
def writeGraphSel (s : State) (pipe : Nat) (v : Word) : State :=
  let k := roleOf s pipe / 2
  let ps := if roleOf s pipe < 8 && pairJoined s k then
      (holderOf s (2 * k)).toList ++ (holderOf s (2 * k + 1)).toList ++ [pipe]
    else [pipe]
  ps.foldl (fun s p => regWrite s (Reg.PIPE_GRAPH_SEL p) v) s

/-- PIPE_GRAPH_SEL_WRITE (R89). -/
def execPipeGraphSelWrite (m : Master) (pipe : Nat) (v : Word) (s : State) : Host.Outcome State Fault Refusal :=
  within (pipe < 10) (onWrite s m fun s => writeGraphSel s pipe v)

/-- A write of PIPE_INLET_CLASS (R127): ignored with CFG_ERR where RES_SLOTS would sum above 1,000. -/
def writeInletClass (s : State) (pipe c : Nat) (v : Word) : State :=
  let t := regWrite s (Reg.PIPE_INLET_CLASS pipe c) v
  if 1000 < ((List.range 8).map fun c => fld t (Reg.PIPE_INLET_CLASS pipe c) 25 16).sum then
    hwSet s (Reg.PIPE_FAULT pipe) 3 31 24
  else t

/-- PIPE_INLET_CLASS_WRITE (R127). -/
def execPipeInletClassWrite (m : Master) (pipe c : Nat) (v : Word) (s : State) : Host.Outcome State Fault Refusal :=
  within (pipe < 10 && c < 8) (onWrite s m fun s => writeInletClass s pipe c v)

/-! ## Joining and splitting (R121) -/

/-- Set JSTATE of a pipe pair. -/
def setPair (s : State) (k j : Nat) : State := setFld s (Reg.PIPE_PAIR_STATUS k) 17 16 j

/-- The body of PIPE_JOIN and PIPE_SPLIT: a pair named by its even pipe. -/
def pairBody (check : State → Nat → Option Reply) (change : Nat) : OpBody where
  lenOk := slots 1
  run c s :=
    let p := slot c.params 0
    if 8 ≤ p ∨ p % 2 = 1 then .finish (badParam 0) s
    else
      let k := p / 2
      match check s k with
      | some r => .finish r s
      | none =>
        .wait true { setPair s k (if change = 1 then 1 else 3) with
          pkt := { s.pkt with joins := tset s.pkt.joins k change } }

/-- A role of the pair has no holder (R121). -/
def pairBroken (s : State) (k : Nat) : Bool := (holderOf s (2 * k)).isNone || (holderOf s (2 * k + 1)).isNone

/-- PIPE_JOIN. -/
def joinBody : OpBody := pairBody (fun s k =>
  if pairState s k != 0 then some (badParam 0)
  else if pairBroken s k then some (refuse stNoResource) else none) 1

/-- PIPE_SPLIT: refused while a SHAPE 1 port of the group is enabled (R121). -/
def splitBody : OpBody := pairBody (fun s k =>
  if shapeOf s (k % 2) = 1 ∧ portEn s (4 * (k % 2)) then some (refuse stWrongGrade (gradeCode s.grade.cur))
  else if pairState s k != 2 then some (badParam 0)
  else if pairBroken s k then some (refuse stNoResource) else none) 2

/-- PIPE_JOIN (R121). -/
def execPipeJoin (pf : Nat) (buf : ParamBuf) (s : State) : Host.Outcome State Fault Refusal :=
  joryen 0x0320 joinBody pf buf s

/-- PIPE_SPLIT (R121). -/
def execPipeSplit (pf : Nat) (buf : ParamBuf) (s : State) : Host.Outcome State Fault Refusal :=
  joryen 0x0321 splitBody pf buf s

/-! ## Roles -/

/-- The pipes of a direction (R122). -/
def dirPipes (tx : Bool) : List Nat := if tx then [4, 5, 6, 7, 9] else [0, 1, 2, 3, 8]
def pipeTx (pipe : Nat) : Bool := (dirPipes true).contains pipe

/-- The spare of a direction: a WARM_SPARE pipe. -/
def spareOf (s : State) (tx : Bool) : Option Nat := (dirPipes tx).find? fun p => pipeState s p == 2

/-- Set a pipe's STATE and ROLE_OF. -/
def setRole (s : State) (pipe st role : Nat) : State :=
  let r := pipeRoleReg pipe
  setFld (setFld s r 2 0 st) r 11 8 role

/-- Give a pipe a role, with the GRAPH of the pipe it replaces (R89, R122). -/
def takeRole (s : State) (pipe role old : Nat) : State :=
  setFld (setRole s pipe 3 role) (Reg.PIPE_GRAPH_SEL pipe) 1 0 (fld s (Reg.PIPE_GRAPH_SEL old) 1 0)

/-- A frame to be parsed again from the start by another pipe (R122, R123). -/
def replayTo (pipe : Nat) (f : InFrame) : InFrame :=
  { f with pipe := some pipe, verdict := none, passes := 0, node := 0, off := 0, depth := 0, recs := [] }

/-- Replay every unretired frame of a pipe into another, and count them there. -/
def replayFrames (s : State) (k old new : Nat) : Nat × State :=
  let n := passesOn s k old
  let s := if 4 ≤ k then mapRole s k fun f => { f with
      pass := f.pass.map fun x => if x.1 = old then (new, x.2) else x }
    else setInlet s k ((inletOf s k).map fun f => if f.pipe = some old then replayTo new f else f)
  (n, count s (Reg.PIPE_REPLAYED new) n)

/-- Roles that no pipe holds are unfilled (R124): the frames waiting for their ports and those not retired go to broke.
`k` is the inlet they are served from. -/
def unfill (s : State) (k pipe : Nat) (roles : List Nat) : State :=
  let s := { s with pkt := { s.pkt with
    unfilled := roles.foldl (fun l r => insNat r l) s.pkt.unfilled } }
  let l := inletOf s k
  let s := (l.foldl (fun s f => brokeInlet s { f with verdict := none } 0x0B pipe (dropFcs f.bytes)) (setInlet s k []))
  if 4 ≤ k && !(txPasses s k).isEmpty then
    let gone := (roleFrames s k).filter fun p => !p.2.passed
    gone.foldl (fun s p => brokeTx s p.1 0x0B p.2) (((List.range (macCount s.variant)).filter fun m =>
      txRole s m == k).foldl (fun s m => modPort s m fun p => { p with
        queues := tmap p.queues fun _ l => l.filter TxFrame.passed }) s)
  else s

/-- A pipe fails (R122 to R124). -/
def pipeFail (s : State) (pipe : Nat) : State :=
  let st := pipeState s pipe
  let role := roleOf s pipe
  if st = 2 then logErr (setRole s pipe 4 0xF) 0x0301 2 (0x310 + pipe) [pipe, pipe, 0]
  else if st != 3 then s
  else
    let k := inletKey s role
    match spareOf s (pipeTx pipe) with
    | some sp =>
      let s := takeRole (setRole s pipe 4 0xF) sp role pipe
      let (n, s) := replayFrames s k pipe sp
      logErr (hwSet s (Reg.PIPE_FAULT pipe) 1 15 8) 0x0301 2 (0x310 + pipe) [pipe, sp, n]
    | none =>
      let s := hwSet (setRole s pipe 4 0xF) (Reg.PIPE_FAULT pipe) 2 23 16
      let s := logErr s 0x0302 2 (0x310 + pipe) [pipe]
      let s := { s with pkt := { s.pkt with leftBy := tset s.pkt.leftBy role pipe } }
      match carrierOf s role with
      | some other => (replayFrames s k pipe other).2
      | none => unfill s k pipe (if pairJoined s (role / 2) then [role / 2 * 2, role / 2 * 2 + 1] else [role])

/-- PIPE_FAILURE (R122). -/
def execPipeFailure (pipe : Nat) (_cause : FailCause) (s : State) : Host.Outcome State Fault Refusal :=
  within (pipe < 10) (live s fun s => pipeFail s pipe)

/-- PIPE_BIST: of a failed pipe only (R125). -/
def bistBody : OpBody where
  lenOk := slots 1
  run c s :=
    let p := slot c.params 0
    if 10 ≤ p then .finish (badParam 0) s
    else if pipeState s p != 4 then .finish (badParam 0) s
    else .wait false (setRole s p 1 0xF)

/-- PIPE_BIST (R125). -/
def execPipeBist (pf : Nat) (buf : ParamBuf) (s : State) : Host.Outcome State Fault Refusal :=
  joryen 0x0322 bistBody pf buf s

/-- A pipe that passes becomes its direction's spare and takes an unfilled role at once, with the GRAPH of the pipe it
replaces (R89, R125). -/
def bistPassed (s : State) (pipe : Nat) : State :=
  match s.pkt.unfilled.find? fun r => decide (4 ≤ r) == pipeTx pipe with
  | some r =>
    let s := takeRole s pipe r (tgetD s.pkt.leftBy r pipe)
    { s with pkt := { s.pkt with unfilled := s.pkt.unfilled.filter (· != r) } }
  | none => setRole s pipe 2 0xF

/-- PIPE_BIST_DONE (R125). -/
def execPipeBistDone (pipe : Nat) (pass : Bool) (s : State) : Host.Outcome State Fault Refusal :=
  within (pipe < 10) (live s fun s =>
    if pipeState s pipe != 1 then s
    else
      let s := if pass then bistPassed s pipe else hwSet (setRole s pipe 4 0xF) (Reg.PIPE_FAULT pipe) 0 7 0
      settleAny s 0x0322 (ok [BitVec.ofNat 32 pass.toNat]))

/-- PIPE_RESTORE: a role and a WARM_SPARE pipe of its direction (R126). -/
def restoreBody : OpBody where
  lenOk := slots 2
  run c s :=
    let role := slot c.params 0
    let p := slot c.params 1
    if 8 ≤ role then .finish (badParam 0) s
    else if 10 ≤ p ∨ pipeState s p != 2 ∨ pipeTx p != decide (4 ≤ role) then .finish (badParam 8) s
    else if (carrierOf s role).isNone then .finish (badParam 0) s
    else .wait true { s with pkt := { s.pkt with moves := tset s.pkt.moves role p } }

/-- PIPE_RESTORE (R126). -/
def execPipeRestore (pf : Nat) (buf : ParamBuf) (s : State) : Host.Outcome State Fault Refusal :=
  joryen 0x0323 restoreBody pf buf s

/-! ## Reorder epochs -/

/-- Move a role at the epoch (R126): its old holder becomes WARM_SPARE; a survivor that carried it keeps its own. A target
that is no longer WARM_SPARE takes nothing: the command is done where it holds the role by now, and refused otherwise
(assumption 104, DESIGN CHOICE). -/
def moveRole (s : State) (role : Nat) : State :=
  match tget s.pkt.moves role with
  | none => s
  | some p =>
    let s := { s with pkt := { s.pkt with moves := terase s.pkt.moves role } }
    if pipeState s p != 2 then settleAny s 0x0323 (if holderOf s role = some p then ok else refuse stNoResource)
    else
      let s := match carrierOf s role with
        | some old => if roleOf s old = role then setRole (takeRole s p role old) old 2 0xF else takeRole s p role old
        | none => setRole s p 3 role
      settleAny { s with pkt := { s.pkt with unfilled := s.pkt.unfilled.filter (· != role) } } 0x0323 ok

/-- A role that no pipe holds once its pair has parted (R121, R124): the spare takes it where it is WARM_SPARE, otherwise
it is unfilled. -/
def orphanPipe (s : State) (role : Nat) : State :=
  if (holderOf s role).isSome then s
  else
    match spareOf s (decide (4 ≤ role)) with
    | some sp => takeRole s sp role (tgetD s.pkt.leftBy role role)
    | none => unfill s role (tgetD s.pkt.leftBy role role) [role]

/-- Frames of two inlet queues in order of admission. -/
def mergeInlet : Nat → List InFrame → List InFrame → List InFrame
  | 0, a, b => a ++ b
  | _, [], b => b
  | _, a, [] => a
  | n + 1, x :: a, y :: b => if x.at' ≤ y.at' then x :: mergeInlet n a (y :: b) else y :: mergeInlet n (x :: a) b

/-- JOINED of a lane group: both its pipe pairs are joined (R42). -/
def showJoined (s : State) (g : Nat) : State :=
  setFlag s (Reg.MAC_LG_CFG g) 8 (pairState s g == 2 && pairState s (2 + g) == 2)

/-- Take the pending join or split of a pair (R121). -/
def changePair (s : State) (k : Nat) : State :=
  match tget s.pkt.joins k with
  | none => s
  | some 1 =>
    let a := inletOf s (2 * k)
    let b := inletOf s (2 * k + 1)
    let s := { s with pkt := { s.pkt with joins := terase s.pkt.joins k } }
    let s := setInlet (setInlet s (2 * k) (mergeInlet (a.length + b.length) a b)) (2 * k + 1) []
    settleAny (showJoined (setPair s k 2) (k % 2)) 0x0320 ok
  | some _ =>
    let l := inletOf s (2 * k)
    let s := { s with pkt := { s.pkt with joins := terase s.pkt.joins k } }
    let s := setPair s k 0
    let s := if k < 2 then
        setInlet (setInlet s (2 * k) (l.filter fun f => rxRole s f.mac == 2 * k)) (2 * k + 1)
          (l.filter fun f => rxRole s f.mac != 2 * k)
      else s
    settleAny (showJoined (orphanPipe (orphanPipe s (2 * k)) (2 * k + 1)) (k % 2)) 0x0321 ok

/-- Frames of a role have started and not retired. -/
def roleBusy (s : State) (role : Nat) : Bool := (inletOf s role).any started || !(txPasses s role).isEmpty

/-- Count a reorder epoch of a pipe pair. -/
def countEpoch (s : State) (k : Nat) : State :=
  setFld s (Reg.PIPE_PAIR_STATUS k) 15 0 (fld s (Reg.PIPE_PAIR_STATUS k) 15 0 + 1)

/-- The restore of the role of a single pipe: its epoch is the retirement of every frame the old holder started (R126). -/
def soloEpoch (s : State) (role : Nat) : State :=
  if (tget s.pkt.moves role).isNone || roleBusy s role then s else moveRole (countEpoch s (role / 2)) role

/-- A reorder epoch of a pipe pair (R121, R126): every frame handed out before has retired. -/
def pipeEpoch (s : State) (k : Nat) : State :=
  if pairWhole s k then
    if roleBusy s (2 * k) || roleBusy s (2 * k + 1) || !epochDue s (2 * k) then s
    else changePair (moveRole (moveRole (countEpoch s k) (2 * k)) (2 * k + 1)) k
  else soloEpoch (soloEpoch s (2 * k)) (2 * k + 1)

/-! ## The transmit inlet -/

/-- A waiting frame that MACsec must protect before admission (R245): the port's MACSEC_EN is set and the frame is no
EAPOL frame. -/
def needsMacsec (s : State) (mac : Nat) (f : TxFrame) : Bool :=
  flag s (Reg.CPH_PORT_CFG mac) 31 && portEn s mac && !f.secured && beAt f.bytes 12 2 != 0x888E &&
  (f.tagged || (txStream s f).isNone)

/-- Send a frame to the transmit lane of its port, with the port's TX_SA; without a usable SA it goes to broke. -/
def toMacsec (s : State) (mac : Nat) (f : TxFrame) : State :=
  let sa := fld s (Reg.CPH_PORT_CFG mac) 21 0
  if saUsable s sa && (saOf s sa).typ == 1 then
    toLane (markAdmitted s f) { seq := 0, onTx := true, mac := mac, sa := sa, bytes := dropFcs f.bytes, tx := some f
                                work := .macsecTx mac }
  else brokeTx s mac 0x0D f

/-- One step of a port's transmit inlet: a frame to protect goes to its lane; otherwise one frame is admitted. -/
def egressStep (s : State) (mac : Nat) : State :=
  match (portOf s mac).waiting.findIdx? (needsMacsec s mac) with
  | some i =>
    match (portOf s mac).waiting[i]? with
    | some f => toMacsec (takeWaiting s mac i) mac f
    | none => s
  | none => admitOne s mac

/-- EGRESS_ADMISSION (R127). -/
def execEgressAdmission (mac : Nat) (s : State) : Host.Outcome State Fault Refusal :=
  within (mac < macCount s.variant) (live s fun s => egressStep s mac)

end Sys2Proof.Machine
end

