-- ==== Sys2Proof/Machine/Tables.lean ====
section
/-! DEFINITION. The Joryen commands of group 0x03 that load parse graphs, programs, templates, tables, meters, mirror
sessions, RSS settings, and read counters (R86 to R116, R364, R373). -/

namespace Sys2Proof.Machine

/-- The first offending parameter among some checks: its offset and whether it is good. -/
def firstBad : List (Nat × Bool) → Option Nat
  | [] => none
  | (off, good) :: cs => if good then firstBad cs else some off

/-- A command whose range checks come first, then its effect. -/
def checked (cs : List (Nat × Bool)) (s : State) (f : Unit → CmdRes) : CmdRes :=
  match firstBad cs with
  | some off => .finish (badParam off) s
  | none => f ()

/-- A PROG number a table entry or a stage may name (R109). -/
def progNameOk (p : Nat) : Bool := p < 16384 || p == 0xFFFF

/-! ## Parse graphs (R88, R99) -/

/-- Some pipe selects the slot. -/
def slotInUse (s : State) (g : Nat) : Bool := (List.range 10).any fun p => fld s (Reg.PIPE_GRAPH_SEL p) 1 0 == g

/-- A slot's record. -/
def graphOf (s : State) (g : Nat) : GraphSlot := tgetD s.pkt.graphs g {}
def setGraph (s : State) (g : Nat) (x : GraphSlot) : State :=
  { s with pkt := { s.pkt with graphs := tset s.pkt.graphs g x } }

/-- Store 32-bit little-endian words from a number on. -/
def putWords (t : Tab Word) (base : Nat) (b : List Byte) : Tab Word :=
  (List.range (b.length / 4)).foldl (fun t i => tset t (base + i) (BitVec.ofNat 32 (leAt b (4 * i) 4))) t

/-- GRAPH_WRITE. -/
def graphWriteBody : OpBody where
  lenOk := slotsThen 3 2 80
  run c s :=
    let g := slot c.params 0
    let first := slot c.params 1
    let n := slot c.params 2
    checked [(0, g < 4), (8, first < 256), (16, 1 ≤ n && n ≤ 48 && first + n ≤ 256)] s fun _ =>
      if slotInUse s g then .finish (refuse stNoResource) s
      else
        let x := graphOf s g
        grant (setGraph s g { x with nodes := putWords x.nodes (20 * first) (c.params.drop 24) })

/-- GRAPH_WRITE (R88). -/
def execGraphWrite (pf : Nat) (buf : ParamBuf) (s : State) : Host.Outcome State Fault Refusal :=
  joryen 0x0300 graphWriteBody pf buf s

/-- GRAPH_STAGE_WRITE. -/
def graphStageBody : OpBody where
  lenOk := fun p => p.length == 56
  run c s :=
    let g := slot c.params 0
    let st := slot c.params 1
    let w0 := BitVec.ofNat 32 (leAt c.params 16 4)
    checked [(0, g < 4), (8, st < 4),
      (16, bits w0 30 28 < 6 && bits w0 19 16 ≤ 8 && progNameOk (leAt c.params 22 2))] s fun _ =>
      if slotInUse s g then .finish (refuse stNoResource) s
      else
        let x := graphOf s g
        grant (setGraph s g { x with stages := putWords x.stages (10 * st) (c.params.drop 16) })

/-- GRAPH_STAGE_WRITE (R99). -/
def execGraphStageWrite (pf : Nat) (buf : ParamBuf) (s : State) : Host.Outcome State Fault Refusal :=
  joryen 0x0301 graphStageBody pf buf s

/-- A word of a node as staged. -/
def stagedNode (x : GraphSlot) (n w : Nat) : Word := tgetD x.nodes (20 * n + w) 0

/-- The node is VALID. -/
def nodeValid (x : GraphSlot) (n : Nat) : Bool := bits (stagedNode x n 0) 31 31 == 1

/-- The nodes a node leads to: by its default and by its edges. -/
def nodeNexts (x : GraphSlot) (n : Nat) : List Nat :=
  let w0 := stagedNode x n 0
  (if bits w0 15 15 = 1 then [] else [bits w0 7 0]) ++
  (List.range (bits w0 21 17)).map fun i => bits (stagedNode x n (4 + i)) 23 16

/-- The nodes reached from some nodes, beside those seen already. -/
def reach (x : GraphSlot) : Nat → List Nat → List Nat → List Nat
  | 0, _, seen => seen
  | _, [], seen => seen
  | fuel + 1, n :: todo, seen =>
    if seen.contains n then reach x fuel todo seen else reach x fuel (nodeNexts x n ++ todo) (n :: seen)

/-- The nodes reached from the start node: each of 256 leads to at most 32. -/
def reached (x : GraphSlot) : List Nat := reach x (1 + 256 * 32) [0] []

/-- A VALID node passes the checks of R88 on its own fields. -/
def nodeOk (x : GraphSlot) (n : Nat) : Bool :=
  let w0 := stagedNode x n 0
  let w1 := stagedNode x n 1
  let w2 := stagedNode x n 2
  let k := bits w0 21 17
  k ≤ 16 && bits w0 23 22 < 2 && bits w0 13 11 < 5 &&
  bits w1 31 21 + bits w1 20 17 + 1 ≤ 2048 && bits w2 31 21 + bits w2 20 18 + 1 ≤ 2048 &&
  (List.range k).all fun i =>
    let e := stagedNode x n (4 + i)
    bits e 15 0 &&& bits w1 15 0 == bits e 15 0

/-- The width of an extract. -/
def extractWidth (w : Word) : Nat :=
  match bits w 31 30 with | 0 => bits w 19 13 + 1 | 1 => 32 | _ => 8

/-- A VALID stage passes the checks of R88, R99, R100 and R106. -/
def stageOk (x : GraphSlot) (i : Nat) : Bool :=
  let w := fun k => tgetD x.stages (10 * i + k) (0 : Word)
  let kind := bits (w 0) 30 28
  let n := bits (w 0) 19 16
  let xs := (List.range n).map fun k => w (2 + k)
  bits (w 0) 31 31 == 0 ||
  (kind < 6 && n ≤ 8 && xs.all (fun e => bits e 31 30 != 3) &&
   (if kind < 4 then (xs.map extractWidth).sum + 16 ≤ keyBits kind
    else n == 1 && xs.all fun e => bits e 31 30 == 0 && extractWidth e == (if kind = 4 then 32 else 128)))

/-- The whole slot passes (R88). -/
def graphOk (x : GraphSlot) : Bool :=
  (reached x).all (nodeValid x) && ((List.range 256).all fun n => !nodeValid x n || nodeOk x n) &&
  (List.range 4).all (stageOk x)

/-- GRAPH_COMMIT. -/
def graphCommitBody : OpBody where
  lenOk := slots 1
  run c s :=
    let g := slot c.params 0
    let x := graphOf s g
    checked [(0, g < 4)] s fun _ =>
      if !graphOk x then .finish (badParam 0) s
      else if slotInUse s g then .finish (refuse stNoResource) s
      else grant (setGraph s g { x with liveNodes := x.nodes, liveStages := x.stages, poison := [] })

/-- GRAPH_COMMIT (R88). -/
def execGraphCommit (pf : Nat) (buf : ParamBuf) (s : State) : Host.Outcome State Fault Refusal :=
  joryen 0x0302 graphCommitBody pf buf s

/-! ## Programs and templates -/

/-- The primitives of a PROG_WRITE. -/
def primsOf (b : List Byte) : List DWord := wordsOf 16 b

/-- The port or quire a destination names exists on the variant (R2, R11). -/
def steerPresent (v : Variant) (d : Steer) : Bool :=
  match d with
  | .core q _ _ => q < quireCount v
  | .port m => m < macCount v
  | _ => true

/-- A STEER primitive with an immediate operand names nothing that the variant lacks (R3). -/
def primPresent (v : Variant) (w : DWord) : Bool :=
  dbits w 63 59 != 0x05 || dbits w 58 58 == 1 || (steerOf (dbits w 57 54) (dbits w 31 0)).all (steerPresent v)

/-- PROG_WRITE. -/
def progWriteBody : OpBody where
  lenOk := fun p => p.length == 136
  objs c s := (primsOf (c.params.drop 8)).all (primPresent s.variant)
  run c s :=
    let n := slot c.params 0
    let ps := primsOf (c.params.drop 8)
    checked ((0, decide (n < 16384)) :: (List.range 16).map fun i => (8 + 8 * i, primOk (ps.getD i 0))) s fun _ =>
      grant { s with pkt := { s.pkt with progs := tset s.pkt.progs n ps } }

/-- PROG_WRITE (R109). -/
def execProgWrite (pf : Nat) (buf : ParamBuf) (s : State) : Host.Outcome State Fault Refusal :=
  joryen 0x0303 progWriteBody pf buf s

/-- TEMPLATE_WRITE. -/
def templateBody : OpBody where
  lenOk := slotsThen 2 1 1
  run c s :=
    let n := slot c.params 0
    checked [(0, n < 1024), (8, slot c.params 1 ≤ 64)] s fun _ =>
      grant { s with pkt := { s.pkt with templates := tset s.pkt.templates n (c.params.drop 16) } }

/-- TEMPLATE_WRITE (R113). -/
def execTemplateWrite (pf : Nat) (buf : ParamBuf) (s : State) : Host.Outcome State Fault Refusal :=
  joryen 0x0304 templateBody pf buf s

/-! ## Exact match (R103, R108) -/

/-- Capacity in narrow entries, and entries in use. -/
def emCapacity : Nat := 2 ^ 28
def emUsed (s : State) : Nat := (s.pkt.em.map fun e => if e.wide then 2 else 1).sum

/-- Key bytes by kind. -/
def emKeyLen (p : List Byte) : Nat := if slot p 0 = 1 then 48 else 16

/-- EM_INSERT: an existing key gets the new result; above 90% of the capacity the device may refuse, which is a free
choice. -/
def emInsertBody : OpBody where
  lenOk := fun p => p.length == 24 + emKeyLen p
  run c s :=
    let wide := slot c.params 0 = 1
    let n := emKeyLen c.params
    let key := beAt c.params 8 n
    let res := beAt c.params (8 + n) 16
    checked [(0, slot c.params 0 < 2), (8 + n, progNameOk (res / 2 ^ 112))] s fun _ =>
      let e : EmEntry := { wide := wide, key := key, result := res, fid := 0 }
      let rest := s.pkt.em.filter fun x => !(x.wide == e.wide && x.key == key)
      let size := if wide then 2 else 1
      let (v, s') := free s
      let known := rest.length < s.pkt.em.length
      if known || emUsed s * 10 ≤ emCapacity * 9 || (emUsed s + size ≤ emCapacity && v.getLsbD 0) then
        grant { (if known || emUsed s * 10 ≤ emCapacity * 9 then s else s') with pkt := { s.pkt with em := rest ++ [e] } }
      else .finish (refuse stNoResource) s'

/-- EM_INSERT (R103). -/
def execEmInsert (pf : Nat) (buf : ParamBuf) (s : State) : Host.Outcome State Fault Refusal :=
  joryen 0x0305 emInsertBody pf buf s

/-- EM_DELETE. -/
def emDeleteBody : OpBody where
  lenOk := fun p => p.length == 8 + emKeyLen p
  objs c s := 2 ≤ slot c.params 0 || s.pkt.em.any fun x =>
    x.wide == (slot c.params 0 == 1) && x.key == beAt c.params 8 (emKeyLen c.params)
  run c s :=
    checked [(0, slot c.params 0 < 2)] s fun _ =>
      let key := beAt c.params 8 (emKeyLen c.params)
      grant { s with pkt := { s.pkt with
        em := s.pkt.em.filter fun x => !(x.wide == (slot c.params 0 == 1) && x.key == key) } }

/-- EM_DELETE (R108). -/
def execEmDelete (pf : Nat) (buf : ParamBuf) (s : State) : Host.Outcome State Fault Refusal :=
  joryen 0x0306 emDeleteBody pf buf s

/-! ## Ternary table (R105) -/

/-- The table without the entries that occupy a slot. -/
def tcamFree (t : Tab TcamEntry) (n : Nat) : Tab TcamEntry :=
  t.filter fun p => !(p.1 == n || (p.2.wide && p.1 + 1 == n))

/-- Key bytes of a ternary entry, padded to slots. -/
def tcamKeyLen (p : List Byte) : Nat := if slot p 1 = 1 then 40 else 24

/-- TCAM_WRITE. -/
def tcamWriteBody : OpBody where
  lenOk := fun p => p.length == 32 + 2 * tcamKeyLen p
  run c s :=
    let n := slot c.params 0
    let wide := slot c.params 1 = 1
    let l := tcamKeyLen c.params
    let bytes := if wide then 40 else 20
    let res := beAt c.params (16 + 2 * l) 16
    checked [(0, n < 131072 && !(wide && n % 2 == 1)), (8, slot c.params 1 < 2),
      (16 + 2 * l, progNameOk (res / 2 ^ 112))] s fun _ =>
      let e : TcamEntry := { wide := wide, key := beAt c.params 16 bytes, mask := beAt c.params (16 + l) bytes, result := res }
      let t := tcamFree s.pkt.tcam n
      let t := if wide then tcamFree t (n + 1) else t
      grant { s with pkt := { s.pkt with tcam := tset t n e } }

/-- TCAM_WRITE (R105). -/
def execTcamWrite (pf : Nat) (buf : ParamBuf) (s : State) : Host.Outcome State Fault Refusal :=
  joryen 0x0307 tcamWriteBody pf buf s

/-- TCAM_CLEAR. -/
def tcamClearBody : OpBody where
  lenOk := slots 1
  run c s := checked [(0, slot c.params 0 < 131072)] s fun _ =>
    grant { s with pkt := { s.pkt with tcam := tcamFree s.pkt.tcam (slot c.params 0) } }

/-- TCAM_CLEAR (R108). -/
def execTcamClear (pf : Nat) (buf : ParamBuf) (s : State) : Host.Outcome State Fault Refusal :=
  joryen 0x0308 tcamClearBody pf buf s

/-! ## Routes (R106) -/

/-- Units a route counts for, and units in use. -/
def routeUnits (r : Route) : Nat := if r.v6 && 64 < r.len then 2 else 1
def lpmUsed (s : State) : Nat := (s.pkt.routes.map routeUnits).sum

/-- The route a command names: IPv6 where the address takes two slots. -/
def routeOf (p : List Byte) (v6 : Bool) (res : Nat) : Route :=
  let w := if v6 then 128 else 32
  let a := if v6 then beAt p 16 16 else slotBe p 2 % 2 ^ 32
  { v6 := v6, vrf := slot p 0, len := slot p 1, addr := a / 2 ^ (w - slot p 1) * 2 ^ (w - slot p 1), result := res }

/-- The same prefix of the same VRF. -/
def sameRoute (a b : Route) : Bool := a.v6 == b.v6 && a.vrf == b.vrf && a.len == b.len && a.addr == b.addr

/-- LPM_ADD. -/
def lpmAddBody : OpBody where
  lenOk := fun p => p.length == 40 || p.length == 48
  run c s :=
    let v6 := c.params.length == 48
    let res := beAt c.params (if v6 then 32 else 24) 16
    checked [(0, slot c.params 0 < 256), (8, slot c.params 1 ≤ (if v6 then 128 else 32)),
      (if v6 then 32 else 24, progNameOk (res / 2 ^ 112))] s fun _ =>
      let r := routeOf c.params v6 res
      let rest := s.pkt.routes.filter fun x => !sameRoute x r
      if 4194304 < (rest.map routeUnits).sum + routeUnits r then .finish (refuse stNoResource) s
      else grant { s with pkt := { s.pkt with routes := rest ++ [r] } }

/-- LPM_ADD (R106). -/
def execLpmAdd (pf : Nat) (buf : ParamBuf) (s : State) : Host.Outcome State Fault Refusal :=
  joryen 0x0309 lpmAddBody pf buf s

/-- LPM_DELETE. -/
def lpmDeleteBody : OpBody where
  lenOk := fun p => p.length == 24 || p.length == 32
  objs c s := 256 ≤ slot c.params 0 || (if c.params.length = 32 then 128 else 32) < slot c.params 1 ||
    s.pkt.routes.any (sameRoute (routeOf c.params (c.params.length == 32) 0))
  run c s :=
    let v6 := c.params.length == 32
    checked [(0, slot c.params 0 < 256), (8, slot c.params 1 ≤ (if v6 then 128 else 32))] s fun _ =>
      grant { s with pkt := { s.pkt with routes := s.pkt.routes.filter fun x => !sameRoute x (routeOf c.params v6 0) } }

/-- LPM_DELETE (R106). -/
def execLpmDelete (pf : Nat) (buf : ParamBuf) (s : State) : Host.Outcome State Fault Refusal :=
  joryen 0x030A lpmDeleteBody pf buf s

/-! ## Meters, mirrors, RSS, counters -/

/-- METER_SET: the buckets start full, as RFC 2698 has it. -/
def meterBody : OpBody where
  lenOk := slots 5
  run c s := checked [(0, slot c.params 0 < 1048576)] s fun _ =>
    let m : Meter := { cir := slot c.params 1, cbs := slot c.params 2, pir := slot c.params 3, pbs := slot c.params 4
                       tc := slot c.params 2 * (2 * giga), tp := slot c.params 4 * (2 * giga), last := s.deviceTime.toNat }
    grant { s with pkt := { s.pkt with meters := tset s.pkt.meters (slot c.params 0) m } }

/-- METER_SET (R115). -/
def execMeterSet (pf : Nat) (buf : ParamBuf) (s : State) : Host.Outcome State Fault Refusal :=
  joryen 0x030B meterBody pf buf s

/-- MIRROR_SET: the destination slot holds TARGET and operand as a STEER primitive does. A port or quire that BX has not
is an absent object (R3). -/
def mirrorBody : OpBody where
  lenOk := slots 3
  objs c s := (steerOf (nbits (slot c.params 1) 57 54) (slot c.params 1 % 2 ^ 32)).all (steerPresent s.variant)
  run c s :=
    let d := slot c.params 1
    checked [(0, slot c.params 0 < 8), (8, nbits d 57 54 < 5), (16, 64 ≤ slot c.params 2 && slot c.params 2 ≤ 9216)] s
      fun _ => match steerOf (nbits d 57 54) (d % 2 ^ 32) with
        | some x => grant { s with pkt := { s.pkt with mirrors := tset s.pkt.mirrors (slot c.params 0) (x, slot c.params 2) } }
        | none => .finish (badParam 8) s

/-- MIRROR_SET (R116). -/
def execMirrorSet (pf : Nat) (buf : ParamBuf) (s : State) : Host.Outcome State Fault Refusal :=
  joryen 0x030C mirrorBody pf buf s

/-- RSS_KEY_SET: HASH_FIELDS 0 selects L3, 1 L3 and L4; HASH_LAYER 0 selects outer, 1 inner headers (HASH_FIELDS:
assumption 99, DESIGN CHOICE). -/
def rssKeyBody : OpBody where
  lenOk := slots 7
  run c s := checked [(40, slot c.params 5 < 2), (48, slot c.params 6 < 2)] s fun _ =>
    grant { s with pkt := { s.pkt with rss := tmod s.pkt.rss c.target {} fun r =>
      { r with key := slotBytes c.params 0 40, l4 := slot c.params 5 == 1, inner := slot c.params 6 == 1 } } }

/-- RSS_KEY_SET (R87). -/
def execRssKeySet (pf : Nat) (buf : ParamBuf) (s : State) : Host.Outcome State Fault Refusal :=
  joryen 0x030D rssKeyBody pf buf s

/-- Table sizes: the powers of two from 64 to 4,096 (R86). -/
def indirSizes : List Nat := [64, 128, 256, 512, 1024, 2048, 4096]

/-- RSS_INDIR_SET. -/
def rssIndirBody : OpBody where
  lenOk := fun p => 16 ≤ p.length && p.length % 2 == 0
  run c s :=
    let n := slot c.params 0
    let first := slot c.params 1
    let k := (c.params.length - 16) / 2
    checked [(0, indirSizes.contains n), (8, first + k ≤ n), (16, 1 ≤ k && k ≤ 2040)] s fun _ =>
      grant { s with pkt := { s.pkt with rss := tmod s.pkt.rss c.target {} fun r =>
        { r with
          n := n
          indir := (List.range k).foldl (fun t i => tset t (first + i) (leAt c.params (16 + 2 * i) 2)) r.indir } } }

/-- RSS_INDIR_SET (R364). -/
def execRssIndirSet (pf : Nat) (buf : ParamBuf) (s : State) : Host.Outcome State Fault Refusal :=
  joryen 0x030E rssIndirBody pf buf s

/-- COUNTER_READ. -/
def counterReadBody : OpBody where
  lenOk := slots 2
  run c s :=
    let first := slot c.params 0
    let n := slot c.params 1
    checked [(0, first < 2 ^ 22), (8, 1 ≤ n && n ≤ 4096 && first + n ≤ 2 ^ 22)] s fun _ =>
      grant s [] ((List.range n).flatMap fun i => toLe 8 (tgetD s.pkt.counters (first + i) 0).toNat)

/-- COUNTER_READ (R373). -/
def execCounterRead (pf : Nat) (buf : ParamBuf) (s : State) : Host.Outcome State Fault Refusal :=
  joryen 0x030F counterReadBody pf buf s

end Sys2Proof.Machine
end

