-- ==== Sys2Proof/Machine/Deckle.lean ====
section
/-! DEFINITION. The deckle (R131 to R167): class and port settings, deckle lists, swaps and cycles, holds, the start
and end of frames, window closes, verification, FRER streams, trigger slots, and what is published ahead. -/

namespace Sys2Proof.Machine

/-! ## Settings -/

/-- A write of a deckle register some of whose fields are locked while PORT_EN is 1 (R133, R141): the locked fields keep
their values and CFG_ERR is set where the write would change one. -/
def lockedWrite (s : State) (mac a : Nat) (mask v : Word) : State :=
  let old := rd s a
  let t := regWrite s a v
  let new := rd t a
  if portEn s mac && (new &&& mask) != (old &&& mask) then
    hwSet (wr s a ((old &&& mask) ||| (new &&& ~~~mask))) (Reg.DKL_PORT_STATUS mac) 3 7 0
  else t

/-- A write of DKL_CLASS_CFG. -/
def writeDklClass (s : State) (mac cls : Nat) (v : Word) : State :=
  lockedWrite s mac (Reg.DKL_CLASS_CFG mac cls) 0xA0003FFF v

/-- DKL_CLASS_CFG_WRITE (R133). -/
def execDklClassCfgWrite (m : Master) (mac cls : Nat) (v : Word) (s : State) : Host.Outcome State Fault Refusal :=
  within (mac < 8 && cls < 8) (onUnitWrite s m (mac < macCount s.variant) fun s => writeDklClass s mac cls v)

/-- A list's cycle in progress at time `now`, when its cycles are counted from `base`. -/
def cycleStartAt (l : DklList) (base now : Nat) : Nat :=
  let cyc := l.cycle * halfNs
  if now ≤ base then base else base + (now - base) / cyc * cyc

/-- Another PHC was selected: the cycle in progress is found again from BASE_TIME on it. -/
def relocate (s : State) (mac : Nat) : State :=
  match (portOf s mac).oper with
  | some (o, _) =>
    let t := cycleStartAt o o.base (phcNow s (portPhc s mac))
    modPort s mac fun p => { p with cycStart := t, runFrom := t, afterStep := true, prev := none }
  | none => s

/-- A write of DKL_PORT_CFG: a port that takes another PHC follows its time from then on. -/
def writeDklPort (s : State) (mac : Nat) (v : Word) : State :=
  let t := lockedWrite s mac (Reg.DKL_PORT_CFG mac) 0x00000301 v
  if portPhc t mac = portPhc s mac then t else relocate t mac

/-- DKL_PORT_CFG_WRITE (R141). -/
def execDklPortCfgWrite (m : Master) (mac : Nat) (v : Word) (s : State) : Host.Outcome State Fault Refusal :=
  within (mac < 8) (onUnitWrite s m (mac < macCount s.variant) fun s => writeDklPort s mac v)

/-! ## Deckle lists -/

/-- A list entry from its 64-bit word (R135). -/
def entryOf (v : Nat) : DklEntry :=
  { gates := BitVec.ofNat 8 (v / 2 ^ 56), op := nbits v 55 52, interval := v % 2 ^ 32, rsv := nbits v 51 32 }

/-- The word of a list entry (R135). -/
def entryWord (e : DklEntry) : Nat := e.gates.toNat * 2 ^ 56 + e.op * 2 ^ 52 + e.rsv * 2 ^ 32 + e.interval

/-- The MAC named by slot 0 exists. -/
def macObj (c : Ctx) (s : State) : Bool := slot c.params 0 < macCount s.variant

/-- DKL_LIST_WRITE. -/
def listWriteBody : OpBody where
  lenOk := slotsThen 3 2 8
  objs := macObj
  run c s :=
    let first := slot c.params 1
    let n := slot c.params 2
    checked [(8, first < 4096), (16, 1 ≤ n && n ≤ 256 && first + n ≤ 4096)] s fun _ =>
      grant (modPort s (slot c.params 0) fun p => { p with
        admin := (List.range n).foldl (fun t i => tset t (first + i) (entryOf (leAt c.params (24 + 8 * i) 8))) p.admin })

/-- DKL_LIST_WRITE (R135). -/
def execDklListWrite (pf : Nat) (buf : ParamBuf) (s : State) : Host.Outcome State Fault Refusal :=
  joryen 0x0400 listWriteBody pf buf s

/-- 50 µs in 2^-16 ns. -/
def fiftyUs : Nat := 50000 * oneNs

/-- An entry passes R136 on a port: its interval, its reserved field, its OP, and at most one SCHED class open. -/
def entryOk (s : State) (mac : Nat) (e : DklEntry) : Bool :=
  e.interval != 0 && e.rsv == 0 && e.op ≤ 2 && (e.op == 0 || flag s (Reg.DKL_PREEMPT_CFG mac) 31) &&
  ((List.range 8).filter fun c => isSched s mac c && e.gates.getLsbD c).length ≤ 1

/-- Every window of a SCHED class holds the wire time of its MAX_SDU (R136): the runs that start in the second of three
cycles. -/
def windowsOk (s : State) (mac : Nat) (l : DklList) : Bool :=
  let cyc := l.cycle * halfNs
  let segs := listSegs l 3 0
  (List.range 8).all fun c => !isSched s mac c ||
    (runs c segs none).all fun w => w.opens < cyc || 2 * cyc ≤ w.opens ||
      wireTime s mac (maxSdu s mac c) ≤ w.closes - w.opens

/-- The configuration-change time of a list committed at `now` (R138). -/
def cctOf (l : DklList) (now : Nat) : Nat :=
  let t := now + fiftyUs
  if t ≤ l.base then l.base else l.base + ceilDiv (t - l.base) (l.cycle * halfNs) * (l.cycle * halfNs)

/-- The pending list of a port is less than 50 µs ahead (R140). -/
def pendClose (s : State) (mac : Nat) : Bool :=
  match (portOf s mac).pend with
  | some (_, cct) => cct < phcNow s (portPhc s mac) + fiftyUs
  | none => false

/-- DKL_LIST_COMMIT. -/
def listCommitBody : OpBody where
  lenOk := slots 6
  objs := macObj
  run c s :=
    let p := c.params
    let mac := slot p 0
    let l : DklList := {
      base := fullTime (slotBytes p 1 12), cycle := slot p 3, ext := slot p 4
      entries := (List.range (slot p 5)).map fun i =>
        tgetD (portOf s mac).admin i { gates := 0, op := 0, interval := 0 } }
    checked [(8, fullTimeNs (slotBytes p 1 12) < giga && leAt p 20 4 == 0),
        (24, 2000 ≤ slot p 3 && slot p 3 ≤ 8000000000), (32, slot p 4 ≤ slot p 3),
        (40, 1 ≤ slot p 5 && slot p 5 ≤ 4096)] s fun _ =>
      if !(l.entries.all (entryOk s mac) && windowsOk s mac l) then .finish (badParam 40) s
      else if pendClose s mac then .finish (refuse stNoResource) s
      else
        let cct := cctOf l (phcNow s (portPhc s mac))
        let s := modPort s mac fun q => { q with pend := some (l, cct), adminList := some l }
        grant (setFlag s (Reg.DKL_PORT_STATUS mac) 1 true) (timeDetails (cct / oneNs * oneNs))

/-- DKL_LIST_COMMIT (R138). -/
def execDklListCommit (pf : Nat) (buf : ParamBuf) (s : State) : Host.Outcome State Fault Refusal :=
  joryen 0x0401 listCommitBody pf buf s

/-- A full time in its two slots. -/
def timeSlots (t : Nat) : List Byte := fullTimeBytes t ++ [0, 0, 0, 0]

/-- What DKL_LIST_READ returns (R516): the list, if any, and its CCT, if any. -/
def listOut (l : Option DklList) (cct : Option Nat) : List Byte :=
  let times := match cct with | some t => timeSlots t | none => List.replicate 16 0xFF
  match l with
  | none => List.replicate 40 0 ++ times
  | some l => timeSlots l.base ++ toLe 8 l.cycle ++ toLe 8 l.ext ++ toLe 8 l.entries.length ++ times ++
      l.entries.flatMap fun e => toLe 8 (entryWord e)

/-- DKL_LIST_READ. -/
def listReadBody : OpBody where
  lenOk := slots 2
  objs := macObj
  run c s :=
    let p := portOf s (slot c.params 0)
    checked [(8, slot c.params 1 < 2)] s fun _ =>
      grant s [] (if slot c.params 1 = 0 then listOut p.adminList (p.pend.map Prod.snd)
                  else listOut (p.oper.map Prod.fst) (p.oper.map Prod.snd))

/-- DKL_LIST_READ (R516). -/
def execDklListRead (pf : Nat) (buf : ParamBuf) (s : State) : Host.Outcome State Fault Refusal :=
  joryen 0x0402 listReadBody pf buf s

/-! ## Swaps, cycles and entries -/

/-- Show the entry in force and the cycles started since the swap. -/
def showPos (s : State) (mac entry cycles : Nat) : State :=
  setFld (setFld s (Reg.DKL_OPER_POS mac) 27 16 entry) (Reg.DKL_OPER_POS mac) 15 0 cycles

/-- The swap of a port whose pending list has come to its CCT (R139, R142, R152, R436): cycle 0 of the new list starts,
SWAPPED is set, the old windows' reservations are released and bound frames are bound again. -/
def listSwap (s : State) (mac : Nat) : State :=
  match (portOf s mac).pend with
  | none => s
  | some (l, cct) =>
    if phcNow s (portPhc s mac) < cct then s
    else
      let s := modPort s mac fun p => { p with
        oper := some (l, cct), pend := none, cycStart := cct, stepped := false
        prev := if p.stepped then none else p.oper.map fun o => (o.1, p.runFrom)
        runFrom := cct, afterStep := p.stepped }
      let st := Reg.DKL_PORT_STATUS mac
      let s := setFlag (setFlag (hwSet s st 4 23 8) st 1 false) st 0 true
      let s := showPos s mac 0 1
      rebind (dropResv s fun r => r.mac == mac && cct ≤ r.opens) mac cct

/-- LIST_SWAP (R139). -/
def execListSwap (mac : Nat) (s : State) : Host.Outcome State Fault Refusal :=
  within (mac < macCount s.variant) (live s fun s => listSwap s mac)

/-- The cycle that would start at `t` gives way to a pending list: CCT is not after it, or less than the old CYCLE_EXT
away (R139). -/
def yieldsTo (s : State) (mac t ext : Nat) : Bool :=
  match (portOf s mac).pend with
  | some (_, cct) => cct < t + ext * halfNs || cct ≤ t
  | none => false

/-- The next cycle of the operational list starts (R137), or the first one after a step (R142). -/
def cycleStart (s : State) (mac : Nat) : State :=
  let p := portOf s mac
  match p.oper with
  | none => s
  | some (o, _) =>
    let t := if p.stepped then p.cycStart else p.cycStart + o.cycle * halfNs
    if phcNow s (portPhc s mac) < t || yieldsTo s mac t o.ext then s
    else
      let s := modPort s mac fun p => { p with cycStart := t, stepped := false }
      showPos s mac 0 (fld s (Reg.DKL_OPER_POS mac) 15 0 + 1)

/-- CYCLE_START (R137). -/
def execCycleStart (mac : Nat) (s : State) : Host.Outcome State Fault Refusal :=
  within (mac < macCount s.variant) (live s fun s => cycleStart s mac)

/-- The start of each entry of a cycle that begins at `t`, with its OP; entries from `stop` on are not used (R137). -/
def entryStarts : List DklEntry → Nat → Nat → List (Nat × Nat)
  | [], _, _ => []
  | e :: es, t, stop => if stop ≤ t then [] else (t, e.op) :: entryStarts es (t + e.interval * halfNs) stop

/-- The entry starts of the cycle in progress of a port. -/
def currentStarts (s : State) (mac : Nat) : List (Nat × Nat) :=
  let p := portOf s mac
  match p.oper with
  | some (o, _) => if p.stepped then [] else entryStarts o.entries p.cycStart (p.cycStart + o.cycle * halfNs)
  | none => []

/-- GATE_ENTRY_START (R137): the entry is in force; OP 2 releases the hold (R146). -/
def execGateEntryStart (mac entry : Nat) (s : State) : Host.Outcome State Fault Refusal :=
  within (mac < macCount s.variant) (live s fun s =>
    match (currentStarts s mac)[entry]? with
    | some (t, op) =>
      if phcNow s (portPhc s mac) < t then s
      else
        let s := setFld s (Reg.DKL_OPER_POS mac) 27 16 entry
        if op = 2 then modPort s mac fun p => { p with hold := false } else s
    | none => s)

/-- The starts in view of entries with OP 1: the cycle in progress, the one after it, and the first of a pending list. -/
def holdStarts (s : State) (mac : Nat) : List Nat :=
  let p := portOf s mac
  let next := match p.oper with
    | some (o, _) =>
      let t := if p.stepped then p.cycStart else p.cycStart + o.cycle * halfNs
      if yieldsTo s mac t o.ext then [] else entryStarts o.entries t (t + o.cycle * halfNs)
    | none => []
  let new := match p.pend with
    | some (l, cct) => entryStarts l.entries cct (cct + l.cycle * halfNs)
    | none => []
  ((currentStarts s mac ++ next ++ new).filter fun e => e.2 == 1).map Prod.fst

/-- Bytes of the frame in transmission that have left by now, the present fragment's preamble apart: at the port rate a
tick of 0.5 ns takes rate/16 bytes. -/
def bytesOut (s : State) (mac : Nat) (f : TxFrame) : Nat :=
  f.sent + ((s.deviceTime.toNat - (portOf s mac).txAt) * portRate s mac / 16 - 8)

/-- IEEE 802.3br permits a cut of the frame in transmission now: the fragment has its minimum of 64 × (ADD_FRAG_SIZE + 1)
bytes with its own check sequence, and at least 64 bytes remain (assumption 45, PRESUMED). -/
def canCut (s : State) (mac : Nat) (f : TxFrame) : Bool :=
  f.sent + 64 * (fld s (Reg.DKL_PREEMPT_CFG mac) 29 28 + 1) ≤ bytesOut s mac f + 4 &&
  bytesOut s mac f + 64 ≤ f.bytes.length

/-- The frame in transmission is pre-empted now: its class is pre-emptable, no other remainder waits, and a boundary is
at hand (R145). -/
def cuts (s : State) (mac : Nat) : Bool :=
  match (portOf s mac).inTx with
  | some f => preemptable s mac f.cls && (portOf s mac).rest.isNone && canCut s mac f
  | none => false

/-- Pre-empt the frame in transmission where it can be cut now (R145). -/
def preempt (s : State) (mac : Nat) : State :=
  match (portOf s mac).inTx with
  | some f =>
    if cuts s mac then
      modPort (emit s (.fragment mac false)) mac fun p => { p with
        inTx := none, rest := some { f with sent := bytesOut s mac f } }
    else s
  | none => s

/-- HOLD_START (R146): HOLD_ADVANCE before an OP 1 entry, a hold comes into force. -/
def execHoldStart (mac : Nat) (s : State) : Host.Outcome State Fault Refusal :=
  within (mac < macCount s.variant) (live s fun s =>
    let now := phcNow s (portPhc s mac)
    if gateEn s mac && preemptActive s mac && !(portOf s mac).hold &&
        (holdStarts s mac).any (fun t => t ≤ now + up16 (holdAdvance s mac) && now ≤ t) then
      preempt (count (modPort s mac fun p => { p with hold := true }) (Reg.MM_HOLD mac)) mac
    else s)

/-! ## Transmission -/

/-- The frame may not leave a port in SEALED (R250). -/
def unsealedFrame (f : TxFrame) : Bool := !f.encrypted && beAt f.bytes 12 2 != 0x888E

/-- In SEALED, the unencrypted frames of a port's class queues go to broke, and so does the remainder of one that was
pre-empted (R29, R250). -/
def sealPurge (s : State) (mac : Nat) : State :=
  if s.grade.cur != .sealed then s
  else
    let p := portOf s mac
    let gone := p.rest.toList.filter unsealedFrame ++
      (List.range 8).flatMap fun c => (queueOf p c).filter unsealedFrame
    let s := modPort s mac fun p => { p with
      rest := p.rest.filter fun f => !unsealedFrame f
      queues := tmap p.queues fun _ fs => fs.filter fun f => !unsealedFrame f }
    gone.foldl (fun s f => brokeTx s mac 0x08 f) s

/-- An unencrypted frame is in transmission on some port. -/
def unsealedTx (s : State) : Bool :=
  (List.range 8).any fun mac => match (portOf s mac).inTx with | some f => unsealedFrame f | none => false

/-- Put a frame into transmission; a tagged packet's record is written now (R496). One that has come to exceed MAX_FRAME
is not transmitted (R53): it goes to broke. -/
def beginTx (s : State) (mac : Nat) (f : TxFrame) : State :=
  let s := dequeueTx s mac f.cls
  if maxFrame s mac < f.bytes.length then brokeTx s mac 0x07 f
  else
  let s := modPort (emit s (.frame mac f.bytes)) mac fun p => { p with inTx := some f, txAt := s.deviceTime.toNat }
  match f.tag with
  | some t => tagRecord s t 4 0 true
  | none => s

/-- The MAC can start a frame on the port. -/
def canStart (s : State) (mac : Nat) : Bool :=
  portEn s mac && linkUp s mac && dataOn s && !s.pkt.squelched && !flag s (Reg.MAC_QI_STATUS mac) 18 &&
  !flag s (Reg.MAC_PORT_STATUS mac) 1 && !flag s (Reg.MAC_PORT_STATUS mac) 2

/-- FRAME_TX_START (R143): the next frame starts; an express frame that is ready pre-empts a pre-emptable one, and so does
a hold in force, at the first boundary that permits it (R145). -/
def execFrameTxStart (mac : Nat) (s : State) : Host.Outcome State Fault Refusal :=
  within (mac < macCount s.variant) (live s fun s =>
    if !canStart s mac then s
    else
      let s := sealPurge s mac
      match (portOf s mac).inTx with
      | none =>
        (match choose s mac (classOrder s mac) with
         | some f => beginTx s mac f
         | none => s)
      | some _ =>
        match choose s mac (expressOrder s mac) with
        | some f => if cuts s mac then beginTx (preempt s mac) mac f else s
        | none => if (portOf s mac).hold then preempt s mac else s)

/-- FRAGMENT_RESUME (R145). -/
def execFragmentResume (mac : Nat) (s : State) : Host.Outcome State Fault Refusal :=
  within (mac < macCount s.variant) (live s fun s =>
    let s := sealPurge s mac
    let p := portOf s mac
    match p.rest with
    | some f =>
      if canStart s mac && p.inTx.isNone && !p.hold && (choose s mac (expressOrder s mac)).isNone then
        count (modPort (emit s (.fragment mac true)) mac fun p => { p with
          inTx := some f, rest := none, txAt := s.deviceTime.toNat }) (Reg.MM_FRAG_TX mac)
      else s
    | none => s)

/-- FRAME_TX_END (R181, R182, R337): the frame is counted, its cells are free, its timestamp goes to the TSQ and its
entry completes. -/
def execFrameTxEnd (mac cap : Nat) (s : State) : Host.Outcome State Fault Refusal :=
  within (mac < macCount s.variant) (live s fun s =>
    match (portOf s mac).inTx with
    | none => s
    | some f =>
      let cap := captureOf s (portOf s mac).txCap cap
      let s := modPort s mac fun p => { p with inTx := none, txCap := cap }
      let s := countTx (freeEgress s mac f) mac f.bytes.length
      let s := match f.ts with
        | some (c, id) => tsqEntry s c id false mac (fld s (Reg.TIM_PORT_TS mac) 9 8) (txTime s mac cap)
        | none => s
      completeFrame s f 0x00)

/-- TSQ_DEFERRED_WRITE (R183). -/
def execTsqDeferredWrite (c : Nat) (s : State) : Host.Outcome State Fault Refusal :=
  live s fun s =>
    match tget s.wq.cqs c with
    | some q => if q.kind = 1 then kick (cqDrainOne s c) q.fid else s
    | none => s

/-! ## Window closes -/

/-- The edges of a class's gate in a stretch of segments: openings (0) or closes (1), but for what the stretch begins
with. -/
def edgesOf (c edge : Nat) (segs : List Seg) : List Nat :=
  ((runs c segs none).map fun w => if edge = 0 then w.opens else w.closes).filter fun e =>
    match segs with
    | g :: _ => g.lo < e
    | [] => false

/-- What the gates were just ahead of the first cycle of the lists in view: closed after a step of the PHC (R142), open
ahead of the first swap (R141). -/
def priorSeg (p : Port) : List Seg :=
  match p.oper, p.pend with
  | some _, _ => if p.prev.isSome then [] else
      [{ lo := p.runFrom - 1, hi := p.runFrom, gates := if p.afterStep then 0 else 0xFF }]
  | none, some (_, cct) => [{ lo := cct - 1, hi := cct, gates := 0xFF }]
  | none, none => []

/-- The edges of a class's gate at or before time `t` of the port's PHC, as far as the cycle before reaches (R163): from
the list before the operational one up to the swap, the operational list ahead of CCT, and the pending list from CCT
on. -/
def edgesNear (s : State) (mac t c edge : Nat) : List Nat :=
  let segs := segsFor s mac t 4
  let segs := match priorSeg (portOf s mac), segs with
    | [g], h :: _ => if g.hi = h.lo then g :: segs else segs
    | _, _ => segs
  (edgesOf c edge segs).filter fun e => e ≤ t

/-- A frame waits at the transmit inlet of a port for the close of a window of class `c`, and one has closed since it
tried: at time `close` (R150). -/
def retries (s : State) (mac c close : Nat) (f : TxFrame) : Bool :=
  f.cls == c && waitsWindow s mac f && (match f.tried with | some t => t < close | none => false)

/-- Held sources try to bind again once a window of the class has closed (R150): each retry is counted. -/
def retryBind (s : State) (mac c : Nat) : State :=
  let close := (edgesNear s mac (phcNow s (portPhc s mac)) c 1).foldl max 0
  let again := retries s mac c close
  let n := ((portOf s mac).waiting.filter again).length
  let s := modPort s mac fun p => { p with
    waiting := p.waiting.map fun f => if again f then { f with tried := none } else f }
  (List.range n).foldl (fun s _ => egressStep s mac) (count s (Reg.DKL_BIND_WAIT mac) n)

/-- WINDOW_CLOSE (R151): frames still bound to a closed window are discarded, unless the port is in HOLD; the window's
reservation is released (R436); held sources retry. -/
def execWindowClose (mac cls : Nat) (s : State) : Host.Outcome State Fault Refusal :=
  within (mac < macCount s.variant && cls < 8) (live s fun s =>
    let now := phcNow s (portPhc s mac)
    let late := fun (f : TxFrame) => match f.bound with | some w => windowEnd s mac cls w ≤ now | none => false
    let fs := queueOf (portOf s mac) cls
    let s :=
      if flag s (Reg.MAC_PORT_STATUS mac) 2 then s
      else
        let s := modPort s mac fun p => { p with queues := tset p.queues cls (fs.filter fun f => !late f) }
        (fs.filter late).foldl (fun s f => discardTx s mac f 0x09 (Reg.TX_GATE_MISSED mac)) s
    retryBind (dropResv s fun r => r.mac == mac && r.cls == cls && r.closes ≤ now) mac cls)

/-! ## Verification (R154) -/

/-- VERIFY_TIMEOUT. -/
def execVerifyTimeout (mac : Nat) (s : State) : Host.Outcome State Fault Refusal :=
  within (mac < macCount s.variant) (live s fun s =>
    let st := Reg.DKL_PREEMPT_STATUS mac
    if fld s st 2 0 != 2 || !(portEn s mac && linkUp s mac) then s
    else if (portOf s mac).attempts < fld s (Reg.DKL_PREEMPT_CFG mac) 3 0 then
      modPort (emit s (.mpacket mac false)) mac fun p => { p with attempts := p.attempts + 1 }
    else hwSet (setFld s st 2 0 4) st 9 7 0)

/-- VERIFY_MPACKET_RECEIVE. -/
def execVerifyMpacketReceive (mac : Nat) (s : State) : Host.Outcome State Fault Refusal :=
  within (mac < macCount s.variant) (live s fun s =>
    if portEn s mac && linkUp s mac && flag s (Reg.DKL_PREEMPT_CFG mac) 31 then emit s (.mpacket mac true) else s)

/-- RESPOND_MPACKET_RECEIVE. -/
def execRespondMpacketReceive (mac : Nat) (s : State) : Host.Outcome State Fault Refusal :=
  within (mac < macCount s.variant) (live s fun s =>
    let st := Reg.DKL_PREEMPT_STATUS mac
    if fld s st 2 0 = 2 then showPreempt (setFld s st 2 0 3) mac else s)

/-! ## FRER streams -/

/-- FRER_RESET_TIMEOUT (R159). -/
def execFrerResetTimeout (h : Nat) (s : State) : Host.Outcome State Fault Refusal :=
  within (h < 32768) (live s fun s =>
    match tget s.time.streams h with
    | some st =>
      if st.recov = 0 then s
      else { s with time := { s.time with streams := tset s.time.streams h { st with
        takeAny := true, resets := (st.resets + 1) % 2 ^ 48 } } }
    | none => s)

/-- FRER_STREAM_SET; a port that BX has not is an absent object (R3, R365). -/
def streamSetBody : OpBody where
  lenOk := slots 13
  objs c s :=
    (256 ≤ slot c.params 8 || slot c.params 8 < 2 ^ macCount s.variant) &&
    (slot c.params 4 != 1 || (slot c.params 5 < macCount s.variant &&
      (slot c.params 6 == 0xF || slot c.params 6 < macCount s.variant)))
  run c s :=
    let p := c.params
    let r := slot p 7
    checked [(0, slot p 0 < 32768), (8, slot p 1 ≤ 2), (16, slotBe p 2 < 2 ^ 48), (24, slot p 3 < 4096),
        (32, slot p 4 ≤ 1), (56, r ≤ 2), (64, slot p 8 < 256),
        (72, r != 1 || (2 ≤ slot p 9 && slot p 9 ≤ 1024)), (80, r == 0 || (1 ≤ slot p 10 && slot p 10 ≤ 65535)),
        (88, slot p 11 ≤ 1), (96, slot p 12 ≤ 1)] s fun _ =>
      grant { s with time := { s.time with streams := tset s.time.streams (slot p 0) {
        idMode := slot p 1, idMac := slotBe p 2, idVid := slot p 3, gen := slot p 4 == 1
        portA := slot p 5, portB := slot p 6, recov := r, rxPorts := slot p 8
        history := slot p 9, resetMs := slot p 10, popTag := slot p 11 == 1, taglessPass := slot p 12 == 1 } } }

/-- FRER_STREAM_SET (R157). -/
def execFrerStreamSet (pf : Nat) (buf : ParamBuf) (s : State) : Host.Outcome State Fault Refusal :=
  joryen 0x0408 streamSetBody pf buf s

/-- FRER_STREAM_CLEAR. -/
def streamClearBody : OpBody where
  lenOk := slots 1
  objs c s := 32768 ≤ slot c.params 0 || (tget s.time.streams (slot c.params 0)).isSome
  run c s :=
    checked [(0, slot c.params 0 < 32768)] s fun _ =>
      grant { s with time := { s.time with streams := terase s.time.streams (slot c.params 0) } }

/-- FRER_STREAM_CLEAR (R157). -/
def execFrerStreamClear (pf : Nat) (buf : ParamBuf) (s : State) : Host.Outcome State Fault Refusal :=
  joryen 0x0409 streamClearBody pf buf s

/-- The 64 bytes of a stream's counts; a stream that is not defined has counted nothing. -/
def streamCounts (s : State) (h : Nat) : List Byte :=
  match tget s.time.streams h with
  | some st => [st.generated, st.passed, st.dup, st.ooo, st.rogue, st.lost, st.tagless, st.resets].flatMap (toLe 8)
  | none => List.replicate 64 0

/-- FRER_STATS. -/
def frerStatsBody : OpBody where
  lenOk := slots 2
  run c s :=
    let first := slot c.params 0
    let n := slot c.params 1
    checked [(0, first < 32768), (8, n ≤ 256 && first + n ≤ 32768)] s fun _ =>
      grant s [] ((List.range n).flatMap fun i => streamCounts s (first + i))

/-- FRER_STATS (R160). -/
def execFrerStats (pf : Nat) (buf : ParamBuf) (s : State) : Host.Outcome State Fault Refusal :=
  joryen 0x040A frerStatsBody pf buf s

/-! ## Trigger slots -/

/-- Change a trigger slot. -/
def modTrig (s : State) (t : Nat) (f : TrigSlot → TrigSlot) : State :=
  { s with time := { s.time with trigs := tmod s.time.trigs t {} f } }

/-- The local slot of slot 0 is assigned to the target. -/
def trigObj (c : Ctx) (s : State) : Bool := (trigOf s c.target (slot c.params 0)).isSome

/-- TRIG_SET; a port that BX has not is an absent object (R3, R365). -/
def trigSetBody : OpBody where
  lenOk := slots 9
  objs c s := trigObj c s && (slot c.params 1 != 2 || 8 ≤ slot c.params 5 || slot c.params 5 < macCount s.variant)
  own c _ := ownTarget c
  run c s :=
    let p := c.params
    let mode := slot p 1
    let off := signed 64 (slot p 8)
    checked [(8, mode == 1 || mode == 2), (16, mode != 1 || slot p 2 < 4), (24, mode != 1 || slot p 3 < 2 ^ 48),
        (32, mode != 1 || slot p 4 == 0 || (100 ≤ slot p 4 && slot p 4 < 2 ^ 40)),
        (40, mode != 2 || slot p 5 < 8), (48, mode != 2 || slot p 6 < 8), (56, mode != 2 || slot p 7 < 2),
        (64, mode != 2 || (-2000000 ≤ off && off ≤ 2000000))] s fun _ =>
      match trigOf s c.target (slot p 0) with
      | none => .finish (refuse stDenied) s
      | some t => grant (modTrig s t fun x => { x with
          armed := true, mode := mode, phc := slot p 2, time := slot p 3, period := slot p 4
          port := slot p 5, cls := slot p 6, edge := slot p 7, offset := off
          last := phcNow s (portPhc s (slot p 5)) - 1 })

/-- TRIG_SET (R161). -/
def execTrigSet (pf : Nat) (buf : ParamBuf) (s : State) : Host.Outcome State Fault Refusal :=
  joryen 0x0410 trigSetBody pf buf s

/-- Every WAIT_TIME of a function that waits on a local slot completes with ABORTED, and its queue goes on (R165). -/
def abortWaits (s : State) (fid loc : Nat) : State :=
  let s := { s with wq := { s.wq with queues := tmap s.wq.queues fun _ q =>
    if q.fid = fid then
      let blocked := blockedIdx q.entries
      { q with entries := q.entries.map fun e =>
          if e.state == .held && e.op == 0x33 && leAt e.raw 4 2 % 4096 == loc && !blocked.contains e.idx then
            { e with state := .done 1 0 [] 0 }
          else e }
    else q } }
  kick s fid

/-- Clear a slot (R161, R165, R320): FIRE_COUNT stays. -/
def clearTrig (s : State) (fid loc t : Nat) : State :=
  abortWaits (modTrig s t fun x => { x with armed := false, mode := 0 }) fid loc

/-- TRIG_CLEAR. -/
def trigClearBody : OpBody where
  lenOk := slots 1
  objs := trigObj
  own c _ := ownTarget c
  run c s :=
    match trigOf s c.target (slot c.params 0) with
    | none => .finish (refuse stDenied) s
    | some t => grant (clearTrig s c.target (slot c.params 0) t)

/-- TRIG_CLEAR (R165). -/
def execTrigClear (pf : Nat) (buf : ParamBuf) (s : State) : Host.Outcome State Fault Refusal :=
  joryen 0x0411 trigClearBody pf buf s

/-- One firing of a slot (R161), and the queues of its function go on (R164). -/
def fireTrig (s : State) (t : Nat) (f : TrigSlot → TrigSlot) : State :=
  let s := modTrig s t fun x => { f x with fires := (x.fires + 1) % 65536 }
  match (tgetD s.time.trigs t {}).owner with
  | some fid => kick s fid
  | none => s

/-- TRIGGER_TIME_FIRE (R162). -/
def execTriggerTimeFire (t : Nat) (s : State) : Host.Outcome State Fault Refusal :=
  within (t < 4096) (live s fun s =>
    let x := tgetD s.time.trigs t {}
    let d := shortDiff (shortTime (phcNow s x.phc)) x.time
    if x.armed && x.mode == 1 && 0 ≤ d then
      if x.period = 0 then fireTrig s t fun x => { x with armed := false }
      else
        let n := d.toNat / x.period
        fireTrig s t fun x => { x with
          time := (x.time + (n + 1) * x.period) % 2 ^ 48, skip := (x.skip + n) % 256 }
    else s)

/-- TRIGGER_EDGE_FIRE (R163). -/
def execTriggerEdgeFire (t : Nat) (s : State) : Host.Outcome State Fault Refusal :=
  within (t < 4096) (live s fun s =>
    let x := tgetD s.time.trigs t {}
    let now := phcNow s (portPhc s x.port)
    let at' := fun (e : Nat) => ((e : Int) + x.offset * halfNs)
    if x.armed && x.mode == 2 && gateEn s x.port then
      match ((edgesNear s x.port ((now : Int) - x.offset * halfNs).toNat x.cls x.edge).filter fun e =>
          (x.last : Int) < at' e && at' e ≤ now).head? with
      | some e => fireTrig s t fun x => { x with last := (at' e).toNat }
      | none => s
    else s)

/-! ## Looking ahead -/

/-- WAKE_AHEAD (R166): TW_RESOLVED + 100 ns before an opening of a WAKE class, the MAC leaves low-power idle. -/
def execWakeAhead (mac : Nat) (s : State) : Host.Outcome State Fault Refusal :=
  within (mac < macCount s.variant) (live s fun s =>
    let now := phcNow s (portPhc s mac)
    let lead := (fld s (Reg.MAC_QI_STATUS mac) 15 0 * 10 + 100) * oneNs
    if gateEn s mac && (List.range 8).any fun c => flag s (Reg.DKL_CLASS_CFG mac c) 30 &&
        (windowsOf s mac c).any fun w => now ≤ w.opens && w.opens ≤ now + lead
    then lpiLeave s mac
    else s)

/-- The openings of a SCHED class within the next 50 µs (R167). -/
def publishable (s : State) (mac cls : Nat) : List Win :=
  let now := phcNow s (portPhc s mac)
  let p := portOf s mac
  let cyc := match p.oper, p.pend with
    | some (o, _), some (l, _) => min o.cycle l.cycle * halfNs
    | some (o, _), none => o.cycle * halfNs
    | none, some (l, _) => l.cycle * halfNs
    | none, none => 1
  let n := fiftyUs / cyc + 4
  if (p.oper.isNone && p.pend.isNone) then []
  else (runs cls (segsFor s mac now n) none).filter fun w => now ≤ w.opens && w.opens ≤ now + fiftyUs

/-- Wire bytes of some frames. -/
def wireBytes (fs : List TxFrame) : Nat := (fs.map fun f => f.bytes.length + 20).sum

/-- BOUND_BYTES of a window's record: the wire bytes bound to it (R167). -/
def boundBytes (s : State) (mac cls : Nat) (w : Win) : Nat :=
  wireBytes ((queueOf (portOf s mac) cls).filter fun f => match f.bound with | some v => overlap v w | none => false)

/-- HELD_BYTES of a record: the wire bytes preloaded in the class and not yet released (R167). -/
def heldBytes (s : State) (mac cls : Nat) : Nat := wireBytes ((queueOf (portOf s mac) cls).filter TxFrame.preload)

/-- The 32-byte record the deckle publishes to the dryer (R167). -/
def windowRecord (r : Resv) : List Byte :=
  toLe 1 r.mac ++ toLe 1 r.cls ++ [0, 0] ++ toLe 4 ((r.closes - r.opens) / halfNs) ++ toLe 8 r.openAt ++
  toLe 4 r.bound ++ toLe 4 r.held ++ List.replicate 8 0

/-- WINDOW_PUBLISH (R167): the record of the `k`-th opening in view; the dryer reserves its energy, or adjusts what it
reserved (R436). -/
def execWindowPublish (mac cls k : Nat) (s : State) : Host.Outcome State Fault Refusal :=
  within (mac < macCount s.variant && cls < 8) (live s fun s =>
    if gateEn s mac && isSched s mac cls then
      match (publishable s mac cls)[k]? with
      | none => s
      | some w =>
        let bound := boundBytes s mac cls w
        let held := heldBytes s mac cls
        let tokens := ceilDiv ((bound + held) * fld s Reg.DRY_E_TX 15 0) 1000000
        let same := fun (r : Resv) => r.mac == mac && r.cls == cls && r.opens == w.opens
        let ramped := s.dry.resv.any fun r => same r && r.ramped
        showReserved { s with dry := { s.dry with
          resv := (s.dry.resv.filter fun r => !same r) ++ [{
            mac := mac, cls := cls, opens := w.opens, closes := w.closes
            openAt := ceilDiv (phcInv s (portPhc s mac) w.opens) 8
            bound := bound, held := held, tokens := tokens, ramped := ramped }] } }
    else s)

end Sys2Proof.Machine
end

