-- ==== Sys2Proof/Machine/Ring.lean ====
section
/-! DEFINITION. PHCs, PPS and the couch ring (R168 to R198). -/

namespace Sys2Proof.Machine

/-! ## PHCs -/

/-- Refuse a rate (R171). -/
def rateRefused (s : State) (n : Nat) : State := hwSet s (Reg.TIM_PHC_STATUS n) 2 15 8

/-- Refuse a step (R176). -/
def stepRefused (s : State) (n : Nat) : State := hwSet s (Reg.TIM_PHC_STATUS n) 0 7 0

/-- The step-once lock. -/
def locked (s : State) (n : Nat) : Bool := flag s (Reg.TIM_PHC_CTRL n) 0

/-- A rate change at the commit tick (R172): the PHC goes on from its value there. -/
def setRate (s : State) (n : Nat) (rate : Int) : State :=
  let s := wr64 s (Reg.TIM_PHC_RATE n) (toBits 40 rate)
  phcSet s n (phcAt s n (commitC s)) rate

/-- The magnitude of a RATE is in range (R171). -/
def rateOk (r : Int) : Bool := -(2 ^ 38 : Int) ≤ r && r ≤ 2 ^ 38

/-- An accepted step (R175): it sets LOCKED and moves the deckles that follow the PHC (R142). -/
def stepPhc (s : State) (n base : Nat) : State :=
  let s := phcSet s n base (phcOf s n).rate
  phcStepped (setFlag s (Reg.TIM_PHC_CTRL n) 0 true) n base

/-- Set or clear LOCKED; clearing it while it is 1 sets DISCONT (R177). -/
def setLocked (s : State) (n : Nat) (v : Bool) : State :=
  let s := if locked s n && !v then hwSet s (Reg.TIM_PHC_STATUS n) 1 31 16 else s
  setFlag s (Reg.TIM_PHC_CTRL n) 0 v

/-- The PHC named by slot 0 exists. -/
def phcObj (c : Ctx) (_ : State) : Bool := slot c.params 0 < 4

/-- PHC_RATE. -/
def phcRateBody : OpBody where
  lenOk := slots 2
  objs := phcObj
  run c s :=
    let n := slot c.params 0
    let r := signed 64 (slot c.params 1)
    if rateOk r then grant (setRate s n r) else .finish (badParam 8) (rateRefused s n)

/-- PHC_RATE (R172). -/
def execPhcRate (pf : Nat) (buf : ParamBuf) (s : State) : Host.Outcome State Fault Refusal :=
  joryen 0x0419 phcRateBody pf buf s

/-- A RATE of 40 bits comes by the register path. -/
def writeRate (s : State) (n rate : Nat) : State :=
  if rateOk (signed 40 (rate % 2 ^ 40)) then setRate s n (signed 40 (rate % 2 ^ 40)) else rateRefused s n

/-- PHC_RATE_REGISTER_COMMIT (R172): a write of TIM_PHC_RATE_HI. -/
def execPhcRateRegisterCommit (m : Master) (n : Nat) (v : Word) (s : State) : Host.Outcome State Fault Refusal :=
  within (n < 4) (onWrite s m fun s => writeRate (dropLatch s m) n (wideValue s m (Reg.TIM_PHC_RATE n) v))

/-- PHC_STEP: a LOCKED PHC draws DENIED_OR_ABSENT, nanoseconds of 10^9 or more BAD_PARAM; both set STEP_REFUSED
(R176). -/
def phcStepBody : OpBody where
  lenOk := slots 3
  objs := phcObj
  run c s :=
    let n := slot c.params 0
    if locked s n then
      let (r, s) := denied s
      .finish r (stepRefused s n)
    else if 2 ^ 48 ≤ slot c.params 1 then .finish (badParam 8) s
    else if giga ≤ slot c.params 2 then .finish (badParam 16) (stepRefused s n)
    else grant (stepPhc s n ((slot c.params 1 * giga + slot c.params 2) * oneNs))

/-- PHC_STEP (R175). -/
def execPhcStep (pf : Nat) (buf : ParamBuf) (s : State) : Host.Outcome State Fault Refusal :=
  joryen 0x0418 phcStepBody pf buf s

/-- A write of TIM_PHC_STEP_GO. -/
def writeStepGo (s : State) (n : Nat) (v : Word) : State :=
  if bits v 0 0 = 0 then s
  else
    let sec := rd64 s (Reg.TIM_PHC_STEP_SEC n) % 2 ^ 48
    let ns := (rd s (Reg.TIM_PHC_STEP_NS n)).toNat
    if locked s n || giga ≤ ns then stepRefused s n else stepPhc s n ((sec * giga + ns) * oneNs)

/-- PHC_STEP_GO (R175). -/
def execPhcStepGo (m : Master) (n : Nat) (v : Word) (s : State) : Host.Outcome State Fault Refusal :=
  within (n < 4) (onWrite s m fun s => writeStepGo s n v)

/-- PHC_LOCK. -/
def phcLockBody : OpBody where
  lenOk := slots 2
  objs := phcObj
  run c s := checked [(8, slot c.params 1 < 2)] s fun _ => grant (setLocked s (slot c.params 0) (slot c.params 1 == 1))

/-- PHC_LOCK (R177). -/
def execPhcLock (pf : Nat) (buf : ParamBuf) (s : State) : Host.Outcome State Fault Refusal :=
  joryen 0x041A phcLockBody pf buf s

/-- PHC_LOCKED_WRITE (R177). -/
def execPhcLockedWrite (m : Master) (n : Nat) (v : Word) (s : State) : Host.Outcome State Fault Refusal :=
  within (n < 4) (onWrite s m fun s => setLocked s n (bits v 0 0 == 1))

/-- Put a snapshot of PHC n at the present tick into its registers. -/
def snapshot (s : State) (n : Nat) : State :=
  let t := phcNow s n
  let s := wr64 s (Reg.TIM_PHC_SNAP_SEC n) (timeSec t)
  let s := wr s (Reg.TIM_PHC_SNAP_NS n) (BitVec.ofNat 32 (timeNs t))
  let s := wr s (Reg.TIM_PHC_SNAP_FRAC n) (BitVec.ofNat 32 (timeFrac t))
  wr64 s (Reg.TIM_PHC_SNAP_DT n) s.deviceTime.toNat

/-- PHC_SNAPSHOT (R173). -/
def execPhcSnapshot (m : Master) (n : Nat) (v : Word) (s : State) : Host.Outcome State Fault Refusal :=
  within (n < 4) (onWrite s m fun s => if bits v 0 0 = 1 then snapshot s n else s)

/-- PHC_READ. -/
def phcReadBody : OpBody where
  lenOk := slots 1
  objs := phcObj
  run c s :=
    let n := slot c.params 0
    grant s (timeDetails (phcNow s n) ++ [BitVec.ofNat 32 (fld s (Reg.TIM_PHC_STATUS_OCC n) 31 16)])

/-- PHC_READ (R514). -/
def execPhcRead (pf : Nat) (buf : ParamBuf) (s : State) : Host.Outcome State Fault Refusal :=
  joryen 0x041B phcReadBody pf buf s

/-! ## PPS -/

/-- PPS_IN_EDGE (R184). -/
def execPpsInEdge (i : Nat) (falling : Bool) (cap : Nat) (s : State) : Host.Outcome State Fault Refusal :=
  within (i < 2) (live s fun s =>
    let cfg := Reg.TIM_PPS_IN_CFG i
    if flag s cfg 0 && flag s cfg 3 == falling then
      let t := phcAt s (fld s cfg 2 1) cap
      let s := wr s (Reg.TIM_PPS_IN_TS i) (BitVec.ofNat 32 (shortTime t))
      let s := wr s (Reg.TIM_PPS_IN_TS i + 4) (BitVec.ofNat 32 (timeFrac t * 65536 + shortTime t / 2 ^ 32))
      hwSet s (Reg.TIM_PPS_STATUS) i (8 * i + 7) (8 * i)
    else s)

/-- PPS_IN_LOSS (R184). -/
def execPpsInLoss (i : Nat) (s : State) : Host.Outcome State Fault Refusal :=
  within (i < 2) (live s fun s =>
    if flag s (Reg.TIM_PPS_IN_CFG i) 0 then hwSet s (Reg.TIM_PPS_STATUS) (2 + i) (16 + 8 * i + 7) (16 + 8 * i) else s)

/-- The pin of PPS output i. -/
def ppsPin (i : Nat) : String := if i = 0 then "PPS_OUT_0" else "PPS_OUT_1"

/-- The PHC of output i, less ADJ, has just crossed a whole second: it lies within 2 ns after one, and it ran there and
was not stepped there (R185). -/
def ppsCrossed (s : State) (i : Nat) : Bool :=
  let n := fld s (Reg.TIM_PPS_OUT_CFG i) 30 29
  let adj := signed 20 (fld s (Reg.TIM_PPS_OUT_ADJ i) 19 0) * 4096
  let second : Int := (giga * oneNs : Nat)
  let t := (phcNow s n : Int) - adj
  let p := phcOf s n
  let stepped := match p.old with
    | (b, a, r) :: _ => p.anchor ≤ nowC s && phcEval b a r p.anchor != p.base
    | [] => true
  decide (t % second < ((2 * oneNs : Nat) : Int)) && (!stepped || decide (((p.base : Int) - adj) / second < t / second))

/-- PPS_OUT_PULSE_START (R185): the PHC crosses a whole second plus ADJ, and no pulse is in progress. -/
def execPpsOutPulseStart (i : Nat) (s : State) : Host.Outcome State Fault Refusal :=
  within (i < 2) (live s fun s =>
    if flag s (Reg.TIM_PPS_OUT_CFG i) 31 && !s.time.ppsHigh.contains i && ppsCrossed s i then
      emit { s with time := { s.time with ppsHigh := insNat i s.time.ppsHigh } } (.pin (ppsPin i) true)
    else s)

/-- PPS_OUT_PULSE_END (R185). -/
def execPpsOutPulseEnd (i : Nat) (s : State) : Host.Outcome State Fault Refusal :=
  within (i < 2) (live s fun s =>
    if s.time.ppsHigh.contains i then
      emit { s with time := { s.time with ppsHigh := s.time.ppsHigh.filter (· != i) } } (.pin (ppsPin i) false)
    else s)

/-! ## The ring node -/

/-- The ring node's record. -/
def ring (s : State) : RingState := s.time.ring

/-- Change it. -/
def modRing (s : State) (f : RingState → RingState) : State := { s with time := { s.time with ring := f s.time.ring } }

/-- STATE of CRG_STATUS: 0 BYPASSED, 1 INSERTING, 2 INSERTED, 3 ISOLATED. -/
def ringState (s : State) : Nat := fld s (Reg.CRG_STATUS) 9 8

/-- Show a state. -/
def setRingState (s : State) (v : Nat) : State := setFld s (Reg.CRG_STATUS) 9 8 v

/-- This node's identifier. -/
def nodeId (s : State) : Nat := fld s (Reg.CRG_CFG) 21 16

/-- The PHC of the ring. -/
def ringPhc (s : State) : Nat := fld s (Reg.CRG_CFG) 25 24

/-- The node may take part: EN, and STRAP_RING_EN high (R198). -/
def ringAllowed (s : State) : Bool := flag s (Reg.CRG_CFG) 31 && flag s (Reg.BOOT_STRAPS) 4

/-- Fields of a ring frame (R187), multi-byte ones in network byte order (assumption 14, DESIGN CHOICE). -/
def rfType (b : List Byte) : Nat := leAt b 0 1
def rfSrc (b : List Byte) : Nat := leAt b 1 1 % 64
def rfDst (b : List Byte) : Nat := leAt b 2 1
def rfHops (b : List Byte) : Nat := leAt b 3 1
def rfSeq (b : List Byte) : Nat := beAt b 4 2
def rfCorr (b : List Byte) : Int := signed 64 (beAt b 8 8)

/-- A frame of the node's own (R187), without its CRC: the next SEQ, HOPS 0. -/
def ringFrame (s : State) (typ dst : Nat) (corr : Int) (payload : List Byte) : List Byte :=
  toLe 1 typ ++ toLe 1 (nodeId s) ++ toLe 1 dst ++ [0] ++ toBe 2 (ring s).seq ++ toBe 2 payload.length ++
  toBe 8 (toBits 64 corr) ++ payload

/-- DEADLINE of an EPOCH has come at a capture (R193). -/
def epochLate (s : State) (b : List Byte) (cap : Nat) : Bool :=
  shortDiff (beAt b 36 6) (shortTime (phcAt s (ringPhc s) cap)) ≤ 0

/-- The ticks a frame takes on a ring output, with preamble, CRC and gap: 10GBASE-R carries a byte in 0.8 ns (assumption
95, PRESUMED). -/
def ringTicks (b : List Byte) : Nat := ceilDiv ((b.length + 24) * 8) 5

/-- The bypasses are open, so the outputs send (R197, R198). -/
def ringOpen (s : State) : Bool := ringState s == 2 || (ringState s == 1 && 3 ≤ (ring s).phase)

/-- The order in which a ring output takes waiting frames: strict priority, P0 first, and within a priority forwarded
frames ahead of the node's own (R189). -/
def ringRank (x : RingTx) : Nat := rfType x.bytes / 64 * 2 + x.own.toNat

/-- The frame an output takes next: of the lowest rank the oldest, with its place in the queue. -/
def ringPick (q : List RingTx) (port : Nat) : Option (Nat × RingTx) :=
  (List.range 8).findSome? fun r =>
    match q.findIdx? fun x => x.port == port && ringRank x == r with
    | some i => (q[i]?).map fun x => (i, x)
    | none => none

/-- An idle output of an open node starts its next frame, with its CRC (R189); an EPOCH whose DEADLINE has come is
discarded and counted instead (R193). -/
def ringStart (s : State) (port : Nat) : State :=
  if !ringOpen s || s.deviceTime.toNat < tgetD (ring s).busy port 0 then s
  else
    match ringPick (ring s).waiting port with
    | none => s
    | some (i, x) =>
      let s := modRing s fun r => { r with waiting := r.waiting.eraseIdx i }
      if rfType x.bytes = 0x01 && epochLate s x.bytes (nowC s) then
        count (modRing s fun r => { r with await := r.await.filter fun a => !(x.own && a == (port, rfSeq x.bytes)) })
          (Reg.CRG_EPOCH_LATE)
      else
        modRing (emit s (.ring port (x.bytes ++ toLe 4 (crc32c x.bytes)))) fun r => { r with
          busy := tset r.busy port (s.deviceTime.toNat + ringTicks x.bytes) }

/-- The outputs that are idle go on. -/
def ringGo (s : State) : State := ringStart (ringStart s 0) 1

/-- Queue a frame for a ring output; it starts at once where the output is idle. -/
def ringOut (s : State) (port : Nat) (own : Bool) (b : List Byte) : State :=
  ringStart (modRing s fun r => { r with waiting := r.waiting ++ [{ port := port, own := own, bytes := b }] }) port

/-- A capture on a ring port, as the device takes it (R169): inputs are 0 and 1, outputs 2 and 3. -/
def ringCap (s : State) (k cap : Nat) : Nat × State :=
  let c := captureOf s (tgetD (ring s).caps k 0) cap
  (c, modRing s fun r => { r with caps := tset r.caps k c })

/-- The next own frame takes another SEQ. -/
def nextSeq (s : State) : State := modRing s fun r => { r with seq := (r.seq + 1) % 65536 }

/-- Send an own broadcast frame on both rings and wait for its return on each (R194). -/
def broadcast (s : State) (typ : Nat) (payload : List Byte) : State :=
  let b := ringFrame s typ 0xFF 0 payload
  let q := (ring s).seq
  nextSeq (ringOut (ringOut (modRing s fun r => { r with await := r.await ++ [(0, q), (1, q)] }) 0 true b) 1 true b)

/-- A frame in transmission on an output is cut off (R195). -/
def ringCutOff (s : State) (port : Nat) : State :=
  if s.deviceTime.toNat < tgetD (ring s).busy port 0 then emit s (.ringCut port) else s

/-- Close both bypasses: what waits on the ring is discarded and a frame in transmission is cut off (R195, R198). -/
def ringClose (s : State) : State :=
  modRing (ringCutOff (ringCutOff s 0) 1) fun r => { r with
    phase := 0, retry := false, inserts := [], returned := [], buffer := [], await := [], waiting := [], busy := [] }

/-- The node enters ISOLATED with its bypasses closed, and starts to watch its inputs (R190, R195, R196). -/
def enterIsolated (s : State) : State :=
  let s := setRingState (ringClose s) 3
  setFld (setFld s (Reg.CRG_PORT_ERR 0) 23 16 0) (Reg.CRG_PORT_ERR 1) 23 16 0

/-- Isolate the node for its errors (R195). -/
def isolate (s : State) : State :=
  let s := hwSet (enterIsolated s) (Reg.CRG_STATUS) 2 15 8
  logErr s 0x0401 2 0x430 [(rd s (Reg.CRG_PORT_ERR 0)).toNat, (rd s (Reg.CRG_PORT_ERR 1)).toNat]

/-- An error counter of a port rises by 8: `lo` is 8 for RX_ERR, 0 for TX_ERR (R194). It saturates at 255; on reaching
96 it sets WARN, on reaching 255 the node isolates itself. -/
def errUp (s : State) (port lo : Nat) : State :=
  let a := Reg.CRG_PORT_ERR port
  let old := fld s a (lo + 7) lo
  let new := min (old + 8) 255
  let s := setFld s a (lo + 7) lo new
  let s := if old < 96 && 96 ≤ new then hwSet s (Reg.CRG_STATUS) port 7 0 else s
  if old < 255 && new = 255 && ringState s != 3 then isolate s else s

/-- An error counter falls by 1. -/
def errDown (s : State) (port lo : Nat) : State :=
  let a := Reg.CRG_PORT_ERR port
  setFld s a (lo + 7) lo (fld s a (lo + 7) lo - 1)

/-- Start an insertion (R196, R197): the node waits for idle inputs. -/
def insertStart (s : State) (again : Bool) : State :=
  if ringAllowed s then
    modRing (setRingState s 1) fun r => { r with
      phase := 1, retry := false, again := again, dup := false, inserts := [], returned := [], buffer := [] }
  else s

/-- While isolated, a frame or an error at a bypassed input (R196). -/
def watch (s : State) (port : Nat) (good : Bool) : State :=
  let a := Reg.CRG_PORT_ERR port
  let s := setFld s a 23 16 (if good then min (fld s a 23 16 + 1) 255 else 0)
  if 128 ≤ fld s (Reg.CRG_PORT_ERR 0) 23 16 && 128 ≤ fld s (Reg.CRG_PORT_ERR 1) 23 16 && !(ring s).dup then
    let half := fun (s : State) (p lo : Nat) =>
      let e := Reg.CRG_PORT_ERR p
      setFld s e (lo + 7) lo (fld s e (lo + 7) lo / 2)
    insertStart (half (half (half (half s 0 8) 0 0) 1 8) 1 0) true
  else s

/-- LINK_DELAY of an input, in 2^-16 ns. -/
def linkDelay (s : State) (port : Nat) : Nat := fld s (Reg.CRG_LINK_DELAY port) 23 0 * 4096

/-- Hand a frame to management firmware (R188). -/
def toFirmware (s : State) (b : List Byte) : State := emit s (.mgmt "RING" b)

/-- OFFSET of a received SYNC (R192). -/
def syncOffset (s : State) (port : Nat) (rx : RingRx) : State :=
  let b := rx.bytes
  let off : Int := (phcAt s (ringPhc s) rx.ingress : Int) -
    (((beAt b 16 6 * giga + beAt b 22 4) * oneNs + beAt b 26 2 : Nat) + rfCorr b + linkDelay s port)
  emit (wr64 s (Reg.CRG_OFFSET) (toBits 64 off)) (.mgmt "OFFSET" (toLe 8 (toBits 64 off)))

/-- The residence of a forwarded frame, scaled by the ring PHC's RATE, in 2^-16 ns (R192). -/
def residence (s : State) (rx : RingRx) : Int :=
  ((rx.egress : Int) - rx.ingress) * (2 ^ 48 + (phcOf s (ringPhc s)).rate) / (2 ^ 36 : Int)

/-- The frame as it goes on: HOPS one more, and CORRECTION of a SYNC with this hop's contribution. -/
def forwarded (s : State) (port : Nat) (rx : RingRx) : List Byte :=
  let b := rx.bytes
  let b := b.take 3 ++ toLe 1 (rfHops b + 1) ++ b.drop 4
  if rfType b = 0x41 then
    b.take 8 ++ toBe 8 (toBits 64 (rfCorr b + residence s rx + linkDelay s port)) ++ b.drop 16
  else b

/-- A frame that is forwarded (R189). -/
def forwards (s : State) (b : List Byte) : Bool :=
  let typ := rfType b
  rfSrc b != nodeId s && typ != 0x42 && typ != 0x43 && !(typ == 0xC1 && rfDst b == nodeId s) && rfHops b < 63

/-- Send a forwarded frame, or buffer it while the insertion has not sent its INSERTs. -/
def forward (s : State) (port : Nat) (rx : RingRx) : State :=
  let b := forwarded s port rx
  if (ring s).phase = 2 then modRing s fun r => { r with buffer := r.buffer ++ [(port, b)] } else ringOut s port false b

/-- An own frame has come back on a port (R194, R197). -/
def ownReturn (s : State) (port : Nat) (b : List Byte) : State :=
  let s :=
    if (ring s).await.contains (port, rfSeq b) then
      errDown (modRing s fun r => { r with await := r.await.filter (· != (port, rfSeq b)) }) port 0
    else s
  if rfType b = 0xC2 && rfSeq b == (ring s).insertSeq && (ring s).inserts.contains port then
    let s := modRing s fun r => { r with inserts := r.inserts.filter (· != port), returned := insNat port r.returned }
    if (ring s).phase = 3 && (ring s).returned == [0, 1] then
      let again := (ring s).again
      let s := setRingState (modRing s fun r => { r with
        phase := 0, returned := [], again := false, insertedOnce := true, lastSrc := [] }) 2
      if again then hwSet s (Reg.CRG_STATUS) 3 23 16 else s
    else s
  else s

/-- The first copy of a broadcast frame (R188): its SRC and SEQ are remembered, until SEQ of that source has gone half
way round (assumption 96, DEDUCED). -/
def firstCopy (s : State) (b : List Byte) : Bool × State :=
  let key := (rfSrc b, rfSeq b)
  if (ring s).seen.contains key then (false, s)
  else
    let recent := fun (x : Nat × Nat) => x.1 != rfSrc b || (rfSeq b + 65536 - x.2) % 65536 < 32768
    (true, modRing s fun r => { r with seen := key :: r.seen.filter recent })

/-- A DELAY_RESP (R191): LINK_DELAY of the input, a free value where the result does not fit its field, and a record where
the neighbour has changed. -/
def delayResp (s : State) (port : Nat) (rx : RingRx) : State :=
  let src := rfSrc rx.bytes
  let s := match tget (ring s).lastSrc port with
    | some old => if old = src then s else logErr s 0x0403 2 0x430 [port, old, src]
    | none => s
  let s := modRing s fun r => { r with lastSrc := tset r.lastSrc port src }
  match tget (ring s).reqAt port with
  | none => s
  | some t1 =>
    let ta := signed 64 (beAt rx.bytes 16 8)
    let d := ((((rx.ingress : Int) - t1) * 4096 - ta) / 2) / 4096 +
      signed 20 (fld s (Reg.CRG_ASYM port) 19 0)
    let (v, s) := if 0 ≤ d && d < 2 ^ 24 then (d.toNat, s) else let (w, s) := free s; (w.toNat % 2 ^ 24, s)
    modRing (setFld s (Reg.CRG_LINK_DELAY port) 23 0 v) fun r => { r with reqAt := terase r.reqAt port }

/-- Answer a DELAY_REQ on the other ring, with TURNAROUND (R191). -/
def delayAnswer (s : State) (port : Nat) (rx : RingRx) : State :=
  let ta : Int := ((rx.egress : Int) - rx.ingress) * 4096
  nextSeq (ringOut s (1 - port) true (ringFrame s 0x43 0xFF 0 (toBe 8 (toBits 64 ta))))

/-- A good frame of another node at an inserted node (R188 to R193). -/
def ringTake (s : State) (port : Nat) (rx : RingRx) : State :=
  let b := rx.bytes
  let typ := rfType b
  if typ = 0x42 then delayAnswer s port rx
  else if typ = 0x43 then delayResp s port rx
  else if typ = 0x01 && epochLate s b rx.egress then count s (Reg.CRG_EPOCH_LATE)
  else
    let bcast := typ == 0x01 || typ == 0x41 || typ == 0x81 || typ == 0xC2
    let (first, s) := if bcast then firstCopy s b else (true, s)
    let s := if typ = 0x41 && first then syncOffset s port rx else s
    let s := if first && (typ == 0x01 || typ == 0x81 ||
      (typ == 0xC1 && (rfDst b == nodeId s || rfDst b == 0xFF))) then toFirmware s b else s
    if forwards s b then forward s port rx else s

/-- An INSERT with the node's own NODE_ID that the node did not send: its SEQ is not that of the one that is out, nor of
an own frame still to return (R190). -/
def foreignInsert (s : State) (port : Nat) (b : List Byte) : Bool :=
  rfType b == 0xC2 && leAt b 16 1 % 64 == nodeId s && !((ring s).await.contains (port, rfSeq b)) &&
  !((ring s).inserts.contains port && rfSeq b == (ring s).insertSeq)

/-- A good frame at a node whose bypasses are open (R189, R190, R194, R198): until the first insertion since POR_N
completes, nothing but INSERTs with the node's own NODE_ID has an effect on it, and every other frame passes through. -/
def ringGood (s : State) (port : Nat) (rx : RingRx) : State :=
  let b := rx.bytes
  if foreignInsert s port b then
    let s := hwSet (enterIsolated s) (Reg.CRG_STATUS) 4 31 24
    modRing s fun r => { r with dup := true }
  else if rfSrc b = nodeId s then ownReturn s port b
  else if (ring s).insertedOnce then ringTake s port rx
  else if forwards s b then forward s port rx else s

/-- RING_FRAME_RECEIVE (R189): a bad frame raises RX_ERR and a good one lowers it (R194), but for a good one while
isolated, when the inputs are only watched (R196; assumption 97, DEDUCED); frames that arrive while the bypasses are
closed are ignored otherwise. -/
def execRingFrameReceive (port : Nat) (rx : RingRx) (s : State) : Host.Outcome State Fault Refusal :=
  within (port < 2) (live s fun s =>
    let (i, s) := ringCap s port rx.ingress
    let (e, s) := ringCap s (2 + port) rx.egress
    let rx := { rx with ingress := i, egress := e }
    let s := if !rx.good then errUp s port 8 else if ringState s = 3 then s else errDown s port 8
    if ringState s = 3 then watch s port rx.good
    else if rx.good && (ringState s == 2 || (ringState s == 1 && 2 ≤ (ring s).phase)) then ringGood s port rx
    else s)

/-- RING_BLOCK_LOCK_LOSS (R194, R196). -/
def execRingBlockLockLoss (port : Nat) (s : State) : Host.Outcome State Fault Refusal :=
  within (port < 2) (live s fun s =>
    let s := errUp s port 8
    if ringState s = 3 then watch s port false else setFld s (Reg.CRG_PORT_ERR port) 23 16 0)

/-- DELAY_MEASURE (R191): DELAY_REQ goes out on the other ring at t1. -/
def execDelayMeasure (port t1 : Nat) (s : State) : Host.Outcome State Fault Refusal :=
  within (port < 2) (live s fun s =>
    if ringState s = 2 then
      let (t1, s) := ringCap s (3 - port) t1
      let s := modRing s fun r => { r with reqAt := tset r.reqAt port t1 }
      nextSeq (ringOut s (1 - port) true (ringFrame s 0x42 0xFF 0 []))
    else s)

/-- SYNC_SEND (R192): ORIGIN is the ring PHC at the departure; the domain byte is a free value. -/
def execSyncSend (cap : Nat) (s : State) : Host.Outcome State Fault Refusal :=
  live s fun s =>
    if flag s (Reg.CRG_CFG) 30 && ringState s == 2 then
      let (cap, s) := ringCap s 2 cap
      let (d, s) := free s
      broadcast s 0x41 (fullTimeBytes (phcAt s (ringPhc s) cap) ++ toLe 1 d.toNat)
    else s

/-- EPOCH_SEND (R193). -/
def execEpochSend (num : Nat) (eff : FullTimeNS) (deadline : Nat) (s : State) : Host.Outcome State Fault Refusal :=
  live s fun s =>
    if flag s (Reg.CRG_CFG) 29 && ringState s == 2 then
      if 0 < shortDiff deadline (shortTime (phcNow s (ringPhc s))) then
        broadcast s 0x01 (toBe 8 num ++ toBe 6 eff.sec ++ toBe 4 eff.ns ++ [0, 0] ++ toBe 6 deadline)
      else count s (Reg.CRG_EPOCH_LATE)
    else s

/-- BROADCAST_RETURN_TIMEOUT (R194): the oldest own broadcast frame outstanding on the port has not returned. An INSERT
that is waited for is the concern of RING_INSERT_TIMEOUT, which counts the one event (R197). -/
def execBroadcastReturnTimeout (port : Nat) (s : State) : Host.Outcome State Fault Refusal :=
  within (port < 2) (live s fun s =>
    match (ring s).await.find? fun a => a.1 == port && ringState s != 1 with
    | some a => errUp (modRing s fun r => { r with await := r.await.filter (· != a) }) port 0
    | none => s)

/-- RING_INSERT_OPEN (R197): the inputs have been idle for 2 µs; the bypasses open and what arrives is buffered. -/
def execRingInsertOpen (s : State) : Host.Outcome State Fault Refusal :=
  live s fun s => if (ring s).phase = 1 && ringAllowed s then modRing s fun r => { r with phase := 2 } else s

/-- RING_INSERT_SEND (R197): the buffered frames go on, P0 first, and INSERT goes out on both rings. -/
def execRingInsertSend (s : State) : Host.Outcome State Fault Refusal :=
  live s fun s =>
    if (ring s).phase = 2 then
      let s := modRing s fun r => { r with
        phase := 3, buffer := [], inserts := [0, 1], returned := [], insertSeq := r.seq
        waiting := r.waiting ++ r.buffer.map fun x => { port := x.1, own := false, bytes := x.2 } }
      ringGo (broadcast s 0xC2 (toLe 1 (nodeId s)))
    else s

/-- RING_INSERT_TIMEOUT (R197): an INSERT did not return: a TX_ERR event on that ring, and both bypasses close. Where
neither returned, the event on the second ring is counted too. -/
def execRingInsertTimeout (port : Nat) (s : State) : Host.Outcome State Fault Refusal :=
  within (port < 2) (live s fun s =>
    if ((ring s).phase = 3 || (ring s).retry) && (ring s).inserts.contains port then
      let left := (ring s).inserts.filter (· != port)
      let s := setRingState (ringClose s) 0
      errUp (modRing s fun r => { r with retry := true, inserts := left }) port 0
    else s)

/-- RING_INSERT_RETRY (R197). -/
def execRingInsertRetry (s : State) : Host.Outcome State Fault Refusal :=
  live s fun s => if (ring s).retry then insertStart s (ring s).again else s

/-- RING_INPUT_LOS (R198): the bypasses close, and the node no longer takes part. -/
def execRingInputLos (port : Nat) (s : State) : Host.Outcome State Fault Refusal :=
  within (port < 2) (live s fun s =>
    if ringState s = 1 || ringState s == 2 then
      modRing (setRingState (ringClose s) 0) fun r => { r with retry := true }
    else s)

/-- A write of CRG_CFG: NODE_ID, PHC_SEL and EN change only while BYPASSED or ISOLATED; a write of EN then starts the
insertion, and ends an isolation. -/
def writeCrg (s : State) (v : Word) : State :=
  let a := Reg.CRG_CFG
  let old := rd s a
  let s := regWrite s a v
  let st := ringState s
  if st = 1 ∨ st = 2 then wr s a ((old &&& 0x833F0000) ||| (rd s a &&& ~~~(0x833F0000 : Word)))
  else if bits v 31 31 = 1 then insertStart s (st == 3)
  else modRing (setRingState s 0) fun r => { r with dup := false, retry := false }

/-- CRG_CFG_WRITE (R190). -/
def execCrgCfgWrite (m : Master) (v : Word) (s : State) : Host.Outcome State Fault Refusal :=
  onWrite s m fun s => writeCrg s v

/-- CRG_MSG_SEND: DST, ring, payload. -/
def crgMsgBody : OpBody where
  lenOk := fun p => 16 ≤ p.length
  run c s :=
    let dst := slot c.params 0
    let payload := c.params.drop 16
    checked [(0, dst < 64 || dst == 0xFF), (8, slot c.params 1 < 2 && ringState s == 2),
        (16, payload.length ≤ 240)] s fun _ =>
      grant (nextSeq (ringOut s (slot c.params 1) true (ringFrame s 0xC1 dst 0 payload)))

/-- CRG_MSG_SEND (R188). -/
def execCrgMsgSend (pf : Nat) (buf : ParamBuf) (s : State) : Host.Outcome State Fault Refusal :=
  joryen 0x0420 crgMsgBody pf buf s

end Sys2Proof.Machine
end

