-- ==== Sys2Proof/Machine/WoveTx.lean ====
section
/-! DEFINITION. Wove, the sending side (R199 to R234): packets and their encryption, acknowledgements, retransmission,
completion of WRs, and the ends of a connection. -/

namespace Sys2Proof.Machine

/-! ## Connections as shared operations -/

/-- Change a connection that exists. -/
def modConn (s : State) (n : Nat) (f : Conn → Conn) : State :=
  match tget s.wove.conns n with
  | some c => { s with wove := { s.wove with conns := tset s.wove.conns n (f c) } }
  | none => s

/-- Width of a PSN: 32 bits, 24 for RoCEv2 (R232). -/
def psnWidth (c : Conn) : Nat := if c.proto = 1 then 24 else 32

/-- Signed difference of two PSNs. -/
def psnDiff (c : Conn) (a b : Nat) : Int := signed (psnWidth c) (toBits (psnWidth c) ((a : Int) - b))

/-- The PSN after another. -/
def psnNext (c : Conn) (a : Nat) : Nat := (a + 1) % 2 ^ psnWidth c

/-- The connection's rate ceiling R_MAX in 0.125 Gb/s; 0 means the port rate (R200). -/
def rMax (s : State) (c : Conn) : Nat := if c.rMax = 0 then portRate s c.mac * 8 else c.rMax

/-- The rate loop acts on the connection (R222, R223). -/
def rcActive (s : State) (c : Conn) : Bool := c.rcEn && !isSched s c.mac c.tc

/-! ## Packets on the wire -/

/-- The one's-complement sum of 16-bit words. -/
def onesSum : List Byte → Nat → Nat
  | a :: b :: t, acc => onesSum t (acc + a.toNat * 256 + b.toNat)
  | [a], acc => acc + a.toNat * 256
  | [], acc => acc

/-- The Internet checksum of a byte string. -/
def inetSum (b : List Byte) : Nat :=
  let s := onesSum b 0
  let s := s % 65536 + s / 65536
  65535 - (s % 65536 + s / 65536)

/-- The Ethernet frame of a wove packet without FCS (R205): layer-2 header, IP, UDP, and the packet. The source MAC
address, TTL or hop limit, and IPv4 identification, which the spec does not give, are the arguments `src`, `ttl` and
`ident`. -/
def woveFrame (s : State) (c : Conn) (path src ttl ident : Nat) (pkt : List Byte) : List Byte :=
  let sport := (c.sport + path) % 65536
  let dport := fld s (Reg.WOV_CFG) 31 16
  let l2 := toBe 6 c.nextHop ++ toBe 6 src ++ (if c.vid = 0 then [] else [0x81, 0x00] ++ toBe 2 c.vid)
  let ulen := 8 + pkt.length
  let tos := c.dscp * 4 + 2
  if c.ipVer = 4 then
    let h := fun (sum : Nat) => [0x45] ++ toBe 1 tos ++ toBe 2 (20 + ulen) ++ toBe 2 ident ++ [0x40, 0] ++
      toBe 1 ttl ++ [17] ++ toBe 2 sum ++ toBe 4 c.localAddr ++ toBe 4 c.peerAddr
    l2 ++ [0x08, 0x00] ++ h (inetSum (h 0)) ++ toBe 2 sport ++ toBe 2 dport ++ toBe 2 ulen ++ [0, 0] ++ pkt
  else
    let addrs := toBe 16 c.localAddr ++ toBe 16 c.peerAddr
    let udp := fun (sum : Nat) => toBe 2 sport ++ toBe 2 dport ++ toBe 2 ulen ++ toBe 2 sum ++ pkt
    let raw := inetSum (addrs ++ toBe 4 ulen ++ [0, 0, 0, 17] ++ udp 0)
    l2 ++ [0x86, 0xDD] ++ toBe 4 (6 * 2 ^ 28 + tos * 2 ^ 20 + sport) ++ toBe 2 ulen ++ [17] ++ toBe 1 ttl ++ addrs ++
      udp (if raw = 0 then 65535 else raw)

/-- The 32-byte wove header (R206). -/
def woveHdr (op : Nat) (first last ackReq phase : Bool) (txCnt path dst psn seqAux key off aux : Nat) : List Byte :=
  [0x10] ++ toBe 1 op ++ toBe 1 (first.toNat * 128 + last.toNat * 64 + ackReq.toNat * 32 + phase.toNat * 16) ++
  toBe 1 txCnt ++ toBe 4 (path * 2 ^ 26 + dst % 2 ^ 20) ++ toBe 4 psn ++ toBe 4 seqAux ++ toBe 4 key ++ toBe 8 off ++
  toBe 4 aux

/-- The nonce of a packet (R224): IV_BASE XOR TX_CNT in bits [39:32] and PSN in bits [31:0]. -/
def woveNonce (a : Sa) (txCnt psn : Nat) : List Byte := toBe 12 (beNat a.salt ^^^ (txCnt * 2 ^ 32 + psn))

/-- ICRC of a RoCEv2 packet (R232): a CRC-32 of the fields as they stand, since the spec does not lay the packet out
(assumption 109, PRESUMED). -/
def icrc (hdr payload : List Byte) : List Byte := fcs (hdr ++ payload)

/-- Send one packet of a connection to its port (R205, R224): encrypted wove packets go through the lane of the port
(R237) as frames to the transmit inlet; of RoCEv2, whose packet format the spec does not lay out, the fields go out as they
stand, with their ICRC. Under a key that is absent or has reached HARD_SEQ (R243, R244), or with no lane for the role
(R261), the packet goes to broke. -/
def emitPacket (s : State) (n : Nat) (c : Conn) (sa path txCnt psn : Nat) (hdr payload : List Byte)
    (wr : Option (Nat × Nat)) (preload : Bool) : State :=
  if c.proto = 1 then emit s (.wove n path hdr (payload ++ icrc hdr payload))
  else
    let a := saOf s sa
    let lost := fun (s : State) (reason : Nat) => broke s reason (hdr ++ payload) { kind := 5, num := c.mac }
    if !saUsable s sa then lost s 0x0D
    else
      match rideLane s true c.mac (hdr.length + payload.length + 16) with
      | none => lost s 0x0B
      | some s =>
        let (ct, tag) := aeadSeal 1 a.key (woveNonce a txCnt psn) hdr payload
        let (v, s) := free s
        let b := woveFrame s c path (v.toNat / 2 ^ 16) (v.toNat % 256) (v.toNat / 256 % 65536) (hdr ++ ct ++ tag)
        sendTo s c.mac { bytes := withFcs b, cls := c.tc, src := { kind := 4, num := n }, wr := wr, preload := preload
                         encrypted := true, secured := false }

/-- The next path in rotation: from `pathNext` on, the first that is not SUSPECT, or `pathNext` itself where all are
(R212). -/
def nextPath (c : Conn) : Nat :=
  (((List.range c.paths).map fun i => (c.pathNext + i) % c.paths).find? fun p => !c.suspect.contains p).getD
    (c.pathNext % c.paths)

/-- The path of a retransmission: the next in rotation after the one the original used (R212). -/
def pathAfter (c : Conn) (p : Nat) : Nat := nextPath { c with pathNext := (p + 1) % c.paths }

/-- Bytes of a packet on the wire (R205): overhead, payload, preamble, delimiter and gap. -/
def packetWire (c : Conn) (len : Nat) : Nat := (if c.ipVer = 6 then 114 else 94) + (if c.vid = 0 then 0 else 4) + len + 20

/-- The start after a packet of `len` payload bytes at rate R (R222): ticks of 0.5 ns. -/
def paceNext (s : State) (c : Conn) (len : Nat) : Nat :=
  if rcActive s c && 0 < c.rate then
    max s.deviceTime.toNat c.nextAt + (((packetWire c len * 128 : Nat) : Rat) / c.rate).ceil.toNat
  else c.nextAt

/-- The connection may start a packet now under its rate. -/
def paced (s : State) (c : Conn) : Bool := !rcActive s c || c.nextAt ≤ s.deviceTime.toNat

/-! ## Phases (R225, R226) -/

/-- REKEY_PKTS. -/
def rekeyPkts (s : State) : Nat := 2 ^ fld s (Reg.WOV_REKEY) 4 0

/-- How far the sender's phase has advanced, in PSNs. -/
def phaseAge (c : Conn) : Nat := (c.nextPsn + 2 ^ 32 - c.phaseStart) % 2 ^ 32

/-- Switch to the next TX key at the next new PSN, if it is installed and due (R225). -/
def switchPhase (s : State) (c : Conn) : Conn :=
  match c.nextTx with
  | some k =>
    if rekeyPkts s ≤ phaseAge c || rekeyPkts s ≤ c.ctrlSeq || c.rekeyNow then
      { c with keyTx := k, nextTx := none, phaseTx := !c.phaseTx, phaseStart := c.nextPsn, ctrlSeq := 0
               rekeyNow := false, dueTx := true }
    else c
  | none => c

/-- The phase is used up and no next TX key is installed (R226). -/
def stallDue (c : Conn) : Bool :=
  c.proto == 0 && c.nextTx.isNone && (2 ^ 31 ≤ phaseAge c || 2 ^ 31 ≤ c.ctrlSeq)

/-- Stall a connection whose phase is used up: REKEY_STALL is set once (R226). -/
def checkStall (s : State) (n : Nat) : State :=
  match tget s.wove.conns n with
  | some c =>
    if stallDue c && !c.stalled then modConn (hwSet s (Reg.WOV_STATUS) 1 31 16) n fun c => { c with stalled := true }
    else s
  | none => s

/-! ## Acknowledgements (R216, R217, R220) -/

/-- The path of a control packet: one of the connection's paths, which one is a free value. -/
def ctrlPath (s : State) (c : Conn) : Nat × State :=
  let (v, s) := free s
  (v.toNat % max c.paths 1, s)

/-- Send a control packet: it takes the next control sequence, with TX_CNT 0xFF. -/
def sendCtrl (s : State) (n op : Nat) (payload : List Byte) : State :=
  match tget s.wove.conns n with
  | none => s
  | some c =>
    let (path, s) := ctrlPath s c
    let hdr := woveHdr op false false false c.phaseTx 0xFF path c.peer c.ctrlSeq 0 0 0 0
    let s := emitPacket s n c c.keyTx path 0xFF c.ctrlSeq hdr payload none false
    modConn s n fun c => { c with ctrlSeq := (c.ctrlSeq + 1) % 2 ^ 32 }

/-- The SACK map (R217): byte 0 bit 7 first, bit i for PSN CUM + 1 + i. -/
def sackMap (c : Conn) : List Byte :=
  (List.range 64).map fun b =>
    BitVec.ofNat 8 (((List.range 8).map fun k => if c.recvd.contains (8 * b + k + 1) then 2 ^ (7 - k) else 0).sum)

/-- Send an ACK, unless the phase is used up (R216, R217, R226). -/
def sendAck (s : State) (n : Nat) : State :=
  let s := checkStall s n
  match tget s.wove.conns n with
  | none => s
  | some c =>
    if c.stalled then s
    else
      let s := sendCtrl s n 0x10 (toBe 4 c.cum ++ toBe 2 (min c.rcvCount 65535) ++ toBe 2 (min c.ceCount 65535) ++
        List.replicate 8 0 ++ sackMap c)
      modConn s n fun c => { c with sinceAck := 0, rcvCount := 0, ceCount := 0 }

/-- The AETH syndrome of a NAK of RoCEv2 (R232; assumption 109, PRESUMED): RNR with its timer, PSN sequence error, remote
access error for what R209 refuses, invalid request for the rest. -/
def roceNak (code timer : Nat) : Nat :=
  match code with
  | 0x01 => 0x20 + timer % 32
  | 0x02 | 0x03 | 0x04 => 0x62
  | 0x08 => 0x60
  | _ => 0x61

/-- Send a NAK (R220, R232). RNR_DELAY, which the spec leaves to the device, is a free value. -/
def sendNak (s : State) (n psn code : Nat) : State :=
  let (v, s) := free s
  let roce := (tget s.wove.conns n).any fun c => c.proto == 1
  let body := if roce then toBe 1 (roceNak code v.toNat) ++ [0]
    else toBe 1 code ++ toBe 1 (if code = 1 then v.toNat % 256 else 0)
  count (sendCtrl s n 0x11 (toBe 4 psn ++ body ++ List.replicate 10 0)) (Reg.WOV_NAK_TX)

/-! ## The ends of WRs and connections -/

/-- STATUS and DETAIL of a WR whose first NAK has a code (R220, R221). -/
def nakStatus : Nat → Nat × Nat
  | 0x02 => (0x06, 0)
  | 0x03 => (0x07, 0x02)
  | 0x04 => (0x07, 0x03)
  | 0x05 => (0x07, 0x04)
  | 0x06 => (0x07, 0x05)
  | 0x07 => (0x07, 0x06)
  | _ => (0x07, 0x07)

/-- The packets of a WR. -/
def packetsOf (c : Conn) (idx : Nat) : List WovTx := c.unacked.filter fun t => t.wr == some idx

/-- The first NAK of a WR by PSN. -/
def firstNak (c : Conn) (idx : Nat) : Option Nat := (packetsOf c idx).findSome? fun t => t.nak

/-- A WR is over: every packet of it was given a PSN and acknowledged or NAKed, and a READ or ATOMIC has its data or
drew a NAK (R228). -/
def wrOver (c : Conn) (w : WovWr) : Bool :=
  w.whole && (packetsOf c w.idx).all (fun t => t.acked || t.nak.isSome) &&
  (w.op < 0x13 || (firstNak c w.idx).isSome || w.len ≤ w.got)

/-- The WRs still under way: their entry is started and unsettled. -/
def openWrs (s : State) (c : Conn) : List WovWr :=
  match qidOf s c.fid c.sq with
  | none => []
  | some qid => match tget s.wq.queues qid with
    | none => []
    | some q => c.wrs.filter fun w => q.entries.any fun e => e.idx == w.idx && !isDone e

/-- Settle one WR that is over. -/
def settleWr (s : State) (c : Conn) (qid : Nat) (w : WovWr) : State :=
  let moved := match w.op with
    | 0x13 => w.got
    | 0x14 => w.got
    | 0x15 => w.got
    | _ => (((packetsOf c w.idx).filter fun t => t.nak.isNone).map fun t => t.payload.length).sum
  match firstNak c w.idx with
  | some k =>
    let (st, d) := nakStatus k
    settleEntry s qid w.idx st d (toLe 4 moved)
  | none => settleEntry s qid w.idx 0 0 (toLe 4 moved)

/-- Complete the WRs that are over, in queue order, drop what is no longer needed of acknowledged packets, and let the
function's queues go on (R228). -/
def completeWrs (s : State) (n : Nat) : State :=
  match tget s.wove.conns n with
  | none => s
  | some c =>
    match qidOf s c.fid c.sq with
    | none => s
    | some qid =>
      let ended := (openWrs s c).filter (wrOver c)
      let s := ended.foldl (fun s w => settleWr s c qid w) s
      let s := modConn s n fun c =>
        let wrs := (openWrs s c)
        { c with
          wrs := wrs
          unacked := c.unacked.filter fun t =>
            !(t.acked || t.nak.isSome) || (match t.wr with | some i => wrs.any fun w => w.idx == i | none => false) }
      kick (flushQ s qid) c.fid

/-- Show that a connection's queues serve none. -/
def unbindQueues (s : State) (n : Nat) : State :=
  { s with wq := { s.wq with queues := tmap s.wq.queues fun _ q => if q.conn = some n then { q with conn := none } else q } }

/-- A connection enters FREE (R202): its WRs complete with ABORTED, its send queue is stopped, and its number waits to be
assigned again. -/
def freeConn (s : State) (n : Nat) : State :=
  match tget s.wove.conns n with
  | none => s
  | some c =>
    let s := match qidOf s c.fid c.sq with
      | some qid => stopQueue s qid
      | none => s
    let s := unbindQueues s n
    kick { s with wove := { s.wove with conns := terase s.wove.conns n, freed := s.wove.freed ++ [n] } } c.fid

/-- Abort every unsettled entry of a connection's send queue. -/
def abortWrs (s : State) (c : Conn) : State :=
  match qidOf s c.fid c.sq with
  | some qid => abortEntries s qid 0x01
  | none => s

/-- A connection enters ERROR (R219): the WR of the oldest unacknowledged PSN completes with RETRY_EXCEEDED, every later
one with ABORTED; CONN_ERROR is set and recorded. -/
def connError (s : State) (n : Nat) : State :=
  match tget s.wove.conns n with
  | none => s
  | some c =>
    let oldest := (c.unacked.find? fun t => !t.acked && t.nak.isNone).bind fun t => t.wr
    let s := match qidOf s c.fid c.sq, oldest with
      | some qid, some idx => settleEntry s qid idx 0x07 0x01
      | _, _ => s
    let s := modConn (abortWrs s c) n fun c => { c with state := 3, wrs := [], unacked := [], resp := [] }
    let s := logErr (hwSet s (Reg.WOV_STATUS) 0 15 0) 0x0501 2 0x500 [n]
    kick s c.fid

/-- An IPsec ESP association covers the packets of a RoCEv2 connection (R233): its key handles name an ESP_OUT and an
ESP_IN SA of its function (assumption 52, DESIGN CHOICE). -/
def espCovers (s : State) (fid keyTx keyRx : Nat) : Bool :=
  saUsable s keyTx && saPresent s keyRx && (saOf s keyTx).typ == 3 && (saOf s keyRx).typ == 4 &&
  (saOf s keyTx).fid == fid && (saOf s keyRx).fid == fid

/-- When SEALED takes effect, RoCEv2 connections that no ESP association covers move to ERROR and their WRs complete with
ABORTED (R233). -/
def roceSealed (s : State) : State :=
  s.wove.conns.foldl (fun s p =>
    if p.2.proto = 1 && p.2.state != 3 && !espCovers s p.2.fid p.2.keyTx p.2.keyRx then
      kick (modConn (abortWrs s p.2) p.1 fun c => { c with state := 3, wrs := [], unacked := [], resp := [] }) p.2.fid
    else s) s

/-! ## Sending -/

/-- Take started entries of the send queue into the connection's list of WRs, in queue order; READ and ATOMIC only
within MAX_RD_ATOMIC (R227, R228). -/
def adoptWrs (c : Conn) (q : Queue) : List QEntry → List WovWr → Nat → List WovWr × Nat
  | [], ws, sq => (ws, sq)
  | e :: es, ws, sq =>
    if ws.any fun w => w.idx == e.idx then adoptWrs c q es ws sq
    else if e.op < 0x10 ∨ 0x15 < e.op then adoptWrs c q es ws sq
    else
      match e.state with
      | .done .. => adoptWrs c q es ws sq
      | .started =>
        let rd := 0x13 ≤ e.op
        if rd && c.maxRd ≤ (ws.filter fun w => 0x13 ≤ w.op).length then (ws, sq)
        else
          let recv := e.op == 0x11 || e.op == 0x12
          adoptWrs c q es (ws ++ [{
            idx := e.idx, op := e.op, len := e.len, key := leAt e.raw 16 4, off := leAt e.raw 20 8
            imm := leAt e.raw 28 4, addr := e.addr, pasid := q.pasid, recvSeq := sq }])
            (if recv then (sq + 1) % 2 ^ 32 else sq)
      | _ => (ws, sq)

/-- Adopt the WRs that may start: only an ACTIVE connection starts any (R201); on one in ERROR they are aborted. -/
def adopt (s : State) (n : Nat) : State :=
  match tget s.wove.conns n with
  | none => s
  | some c =>
    match (qidOf s c.fid c.sq).bind fun qid => tget s.wq.queues qid with
    | none => s
    | some q =>
      if c.state = 3 then (if q.entries.isEmpty then s else abortWrs s c)
      else if c.state = 1 then
        let (ws, sq) := adoptWrs c q q.entries (openWrs s c) c.sendSeq
        modConn s n fun c => { c with wrs := ws, sendSeq := sq }
      else s

/-- The packet type of a WR's packets (R207). -/
def wrOpcode (op : Nat) : Nat :=
  match op with
  | 0x10 => 0x01 | 0x11 => 0x02 | 0x12 => 0x03 | 0x13 => 0x04 | 0x14 => 0x06 | _ => 0x07

/-- The payload bytes the next packet of a WR takes from host memory. -/
def wrNeed (c : Conn) (w : WovWr) : Nat :=
  match w.op with
  | 0x13 => 0
  | 0x14 => 24
  | 0x15 => 24
  | _ => min c.maxPayload (w.len - w.sent)

/-- Give a packet the next PSN and send it (R207, R212, R225). -/
def sendNew (s : State) (n : Nat) (t : WovTx) (wr : Option (Nat × Nat)) (preload : Bool) : State :=
  match tget s.wove.conns n with
  | none => s
  | some c =>
    let c := switchPhase s c
    let path := nextPath c
    let t := { t with
      psn := c.nextPsn, path := path, origPath := path, phase := c.phaseTx, sa := c.keyTx, sentAt := s.deviceTime.toNat }
    let hdr := woveHdr t.op t.first t.last t.last t.phase 0 path c.peer t.psn t.seqAux t.key t.off t.aux
    let s := modConn s n fun _ => { c with
      nextPsn := psnNext c c.nextPsn, pathNext := (path + 1) % max c.paths 1
      unacked := c.unacked ++ [t], nextAt := paceNext s c t.payload.length }
    count (emitPacket s n c c.keyTx path 0 t.psn hdr t.payload wr preload) (Reg.WOV_TX_PKTS)

/-- The packet's payload comes from host memory again when it is retransmitted: a WRITE or a SEND (R218). -/
def reReads (t : WovTx) : Bool := 1 ≤ t.op && t.op ≤ 3 && !t.payload.isEmpty

/-- Retransmit a packet (R212, R218): TX_CNT one more, its key phase kept, ACK_REQ set, on the path after its first. A WRITE
or a SEND takes its payload from host memory again; where that read fails its WR does (R292). -/
def resendOne (s : State) (n : Nat) (c : Conn) (t : WovTx) (again : HostRead) : State :=
  if t.txCnt = 0xFE then connError s n
  else
    match reReads t, again with
    | true, .fail r =>
      (match qidOf s c.fid c.sq, t.wr with
       | some qid, some idx => failRead s qid idx r
       | _, _ => s)
    | reads, b =>
    let fresh := match reads, b with | true, .ok b => b | _, _ => t.payload
    if fresh.length ≠ t.payload.length then s
    else
    let t := { t with payload := fresh }
    let path := pathAfter c t.origPath
    let t' := { t with
      txCnt := t.txCnt + 1, path := path, sentAt := s.deviceTime.toNat, resend := false }
    let hdr := woveHdr t.op t.first t.last true t.phase t'.txCnt path c.peer t.psn t.seqAux t.key t.off t.aux
    let s := modConn s n fun c => { c with
      unacked := c.unacked.map fun x => if x.psn = t.psn then t' else x
      nextAt := paceNext s c t.payload.length }
    count (emitPacket s n c t.sa path t'.txCnt t.psn hdr t.payload none false) (Reg.WOV_RETX)

/-- The window of a key, if it is open with that generation. -/
def windowOf (s : State) (key : Nat) : Option Window :=
  match tget s.wove.windows (key / 1024) with
  | some w => if w.gen = key % 1024 then some w else none
  | none => none

/-- Answer the oldest READ or ATOMIC of the peer with the bytes read from its window (R229, R230). A failed read draws a
NAK with ACCESS (R311). -/
def sendResp (s : State) (n : Nat) (c : Conn) (r : WovResp) (payload : HostRead) : State :=
  match windowOf s r.key, payload with
  | some w, .ok b =>
    if r.op = 0x04 then
      let k := min c.maxPayload (r.len - r.sent)
      if b.length ≠ k then s
      else
        let last := r.sent + k == r.len
        let s := modConn s n fun c => { c with
          resp := if last then c.resp.drop 1 else { r with sent := r.sent + k } :: c.resp.drop 1 }
        sendNew s n { psn := 0, op := 0x05, first := r.sent == 0, last := last, wr := none, seqAux := r.reqPsn, key := 0
                      off := r.sent, aux := 0, payload := b } none false
    else if b.length ≠ 8 then s
    else
      let orig := leNat b
      let new := if r.op = 0x06 then toLe 8 (orig + leAt r.operand 0 8)
        else if b = slice r.operand 0 8 then slice r.operand 8 8 else b
      let s := hostWrite s w.fid w.pasid (w.base + r.off) new
      let s := modConn s n fun c => { c with resp := c.resp.drop 1, atomics := tset c.atomics r.reqPsn orig }
      sendNew s n { psn := 0, op := 0x08, first := true, last := true, wr := none, seqAux := r.reqPsn, key := 0
                    off := 0, aux := 0, payload := b } none false
  | some _, .fail _ => sendNak (modConn s n fun c => { c with resp := c.resp.drop 1 }) n r.reqPsn 0x03
  | none, _ => sendNak (modConn s n fun c => { c with resp := c.resp.drop 1 }) n r.reqPsn 0x02

/-- Send the next packet of a WR with the bytes read for it (R207, R227). A failed read ends the WR and stops its queue
(R292). -/
def sendWr (s : State) (n : Nat) (c : Conn) (qid : Nat) (w : WovWr) (payload : HostRead) : State :=
  let need := wrNeed c w
  let bytes := if need = 0 then some (some []) else
    match payload with
    | .ok b => if b.length = need then some (some b) else some none
    | .fail _ => none
  match bytes with
  | none => (match payload with | .fail r => failRead s qid w.idx r | .ok _ => s)
  | some none => s
  | some (some b) =>
    let data := match w.op with | 0x14 => b.take 8 | 0x15 => b.take 16 | _ => b
    let k := if w.op < 0x13 then need else 0
    let last := 0x13 ≤ w.op || w.sent + k == w.len
    let t : WovTx := {
      psn := 0, op := wrOpcode w.op, first := w.sent == 0, last := last, wr := some w.idx
      seqAux := if w.op = 0x11 ∨ w.op = 0x12 then w.recvSeq else 0
      key := if w.op = 0x12 then 0 else w.key
      off := if w.op = 0x12 then w.sent else if w.op < 0x12 then w.off + w.sent else w.off
      aux := if w.op = 0x12 then (if w.sent = 0 then w.len else 0)
        else if w.op = 0x11 then (if last then w.imm else 0) else if w.op = 0x13 then w.len else 0
      payload := data }
    let blocked := match tget s.wq.queues qid with | some q => blockedIdx q.entries | none => []
    let s := modConn s n fun c => { c with wrs := c.wrs.map fun x =>
      if x.idx = w.idx then { x with
        sent := x.sent + k, whole := last, reqPsn := (switchPhase s c).nextPsn } else x }
    sendNew s n t (some (qid, w.idx)) (blocked.contains w.idx)

/-- One packet of a connection (R212, R218, R222): a retransmission that is due goes first, then responses, then the
next packet of a started WR; no new PSN at or beyond CUM + 512, and none while stalled (R226). -/
def sendNext (s : State) (n : Nat) (payload : HostRead) : State :=
  match tget s.wove.conns n with
  | none => s
  | some c =>
    match c.unacked.find? fun t => t.resend && !t.acked && t.nak.isNone && !t.rnrWait with
    | some t => resendOne s n c t payload
    | none =>
      if c.stalled || 512 ≤ psnDiff c c.nextPsn c.cumTx then s
      else
        match c.resp with
        | r :: _ => sendResp s n c r payload
        | [] =>
          match qidOf s c.fid c.sq, c.wrs.find? fun w => !w.whole with
          | some qid, some w => sendWr s n c qid w payload
          | _, _ => s

/-- Count a miss of the context cache, once until the context has come (R204). -/
def missContext (s : State) (n : Nat) : State :=
  match tget s.wove.conns n with
  | some c => if c.missed then s else count (modConn s n fun c => { c with missed := true }) (Reg.WOV_CTX_MISS)
  | none => s

/-- WOVE_PACKET_SEND (R212): `payload` is what the host answered to the read of the bytes the packet needs. -/
def execWovePacketSend (n : Nat) (payload : HostRead) (s : State) : Host.Outcome State Fault Refusal :=
  within (n < 2 ^ 20) (live s fun s =>
    if !flag s (Reg.WOV_CFG) 0 || !dataOn s then s
    else
      let s := checkStall (adopt s n) n
      match tget s.wove.conns n with
      | none => s
      | some c =>
        if c.state = 3 then s
        else if !c.cached then missContext s n
        else if !canRequest s c.fid || fnHalted s c.fid || !paced s c then s
        else sendNext s n payload)

/-! ## What acknowledgements do (R218 to R221) -/

/-- The REORDER_WIN in ticks. -/
def reorderWin (s : State) : Nat := fld s (Reg.WOV_TIMERS) 15 8 * 2000

/-- Take an ACK: CUM and SACK acknowledge, the retransmission timer starts again on an advance, packets sent REORDER_WIN
before one that arrived are lost and their paths SUSPECT; its counts go to the rate loop. -/
def takeAck (s : State) (n : Nat) (c : Conn) (p : List Byte) : State :=
  let cum := beAt p 0 4
  let adv := 0 < psnDiff c cum c.cumTx
  let cumTx := if adv then cum else c.cumTx
  let got := fun (psn : Nat) =>
    let d := psnDiff c psn cum
    d < 0 || (1 ≤ d && d ≤ 512 && bitsAt p (128 + (d.toNat - 1)) 1 == some 1)
  let un := c.unacked.map fun t => if got t.psn then { t with acked := true, resend := false, rnrWait := false } else t
  let latest := un.foldl (fun m t => if t.acked then max m t.sentAt else m) c.latestAck
  let lost := fun (t : WovTx) => !t.acked && t.nak.isNone && !t.rnrWait && !t.resend && c.proto == 0 &&
    t.sentAt + reorderWin s ≤ latest
  let sus := (un.filter lost).foldl (fun l t => insNat t.path l) c.suspect
  let s := modConn s n fun c => { c with
    cumTx := cumTx, expiries := if adv then 0 else c.expiries, latestAck := latest, suspect := sus
    unacked := un.map fun t => if lost t then { t with resend := true } else t
    atomics := c.atomics.filter fun p => un.any fun t => t.op == 0x08 && t.seqAux == p.1 && !t.acked
    n := c.n + beAt p 4 2, m := c.m + beAt p 6 2 }
  completeWrs s n

/-- The NAK code a syndrome of RoCEv2 stands for: RNR, sequence error, or one of those whose completion R220 gives; which
of these the spec does not say, so `v` chooses (R232; assumption 52, DESIGN CHOICE). -/
def nakOfRoce (syndrome v : Nat) : Nat :=
  if syndrome / 32 = 1 then 0x01
  else if syndrome = 0x60 then 0x08
  else if syndrome = 0x62 then 2 + v % 3
  else 5 + v % 3

/-- Take a NAK (R220, R221). -/
def takeNak (s : State) (n : Nat) (c : Conn) (p : List Byte) : State :=
  let psn := beAt p 0 4
  let (v, s) := free s
  let code := if c.proto = 1 then nakOfRoce (beAt p 4 1) v.toNat else beAt p 4 1
  let max' := fld s (Reg.WOV_TIMERS) 7 0
  let s := modConn s n fun _ => { c with
    unacked := c.unacked.map fun t =>
      if c.proto = 1 && code == 0x08 then (if 0 ≤ psnDiff c t.psn psn && !t.acked then { t with resend := true } else t)
      else if t.psn ≠ psn || t.nak.isSome then t
      else if code = 1 then
        (if max' ≤ t.rnr + 1 then { t with rnr := t.rnr + 1, nak := some 0xFF, resend := false, rnrWait := false }
         else { t with rnr := t.rnr + 1, rnrWait := true, resend := false })
      else { t with nak := some code, acked := true, resend := false, rnrWait := false } }
  completeWrs s n

/-- The buffers from a byte position on. -/
def skipSge : List (Nat × Nat) → Nat → List (Nat × Nat)
  | [], _ => []
  | (a, l) :: t, k => if l ≤ k then skipSge t (k - l) else (a + k, l - k) :: t

/-- A response acknowledges its request (R230), and its data is placed in the requester's buffer (R214, R228). -/
def takeResponse (s : State) (n : Nat) (c : Conn) (op reqPsn off : Nat) (b : List Byte) : State :=
  match c.wrs.find? fun w => w.reqPsn == reqPsn && 0x13 ≤ w.op && w.whole with
  | none => s
  | some w =>
    match (qidOf s c.fid c.sq).bind fun qid => tget s.wq.queues qid with
    | none => s
    | some q =>
      match q.entries.find? fun e => e.idx == w.idx with
      | none => s
      | some e =>
        let at' := if op = 0x08 then 16 else off
        let whole := if op = 0x08 then [(e.addr, 24)] else e.sge
        let s := writeSge s q.fid q.pasid (skipSge whole at') b
        modConn s n fun c => { c with
          wrs := c.wrs.map fun x => if x.idx = w.idx then { x with got := x.got + b.length } else x
          unacked := c.unacked.map fun t => if t.psn = reqPsn then { t with acked := true, resend := false } else t }

/-- RETRANSMIT_TIMEOUT (R219). -/
def execRetransmitTimeout (n : Nat) (s : State) : Host.Outcome State Fault Refusal :=
  within (n < 2 ^ 20) (live s fun s =>
    match tget s.wove.conns n with
    | none => s
    | some c =>
      if c.state = 3 || !(c.unacked.any fun t => !t.acked && t.nak.isNone) then s
      else
        let s := count s (Reg.WOV_RTO_EXPIRED)
        if fld s (Reg.WOV_TIMERS) 7 0 ≤ c.expiries + 1 then connError s n
        else
          let rto := fld s (Reg.WOV_RTO) 19 0 * 200
          let back := (c.unacked.any fun t => !t.acked && t.sentAt + rto < s.deviceTime.toNat) && c.proto == 1
          modConn s n fun c => { c with
            expiries := c.expiries + 1
            unacked := c.unacked.map fun t =>
              if !t.acked && t.nak.isNone && !t.rnrWait && (back || t.sentAt + rto < s.deviceTime.toNat) then
                { t with resend := true } else t })

/-- RNR_RETRY (R221). -/
def execRnrRetry (n psn : Nat) (s : State) : Host.Outcome State Fault Refusal :=
  within (n < 2 ^ 20) (live s fun s => modConn s n fun c => { c with
    unacked := c.unacked.map fun t => if t.psn = psn && t.rnrWait then { t with resend := true, rnrWait := false } else t })

/-- PATH_SUSPECT_END (R212). -/
def execPathSuspectEnd (n path : Nat) (s : State) : Host.Outcome State Fault Refusal :=
  within (n < 2 ^ 20) (live s fun s => modConn s n fun c => { c with suspect := c.suspect.filter (· != path) })

/-- ACK_COAL_TIMEOUT (R216). -/
def execAckCoalTimeout (n : Nat) (s : State) : Host.Outcome State Fault Refusal :=
  within (n < 2 ^ 20) (live s fun s =>
    match tget s.wove.conns n with
    | some c => if 0 < c.sinceAck && c.state != 3 then sendAck s n else s
    | none => s)

/-- The rate and estimate after an interval, by G and R_AI as they stood at its start (R222, WOV_RC_CFG). -/
def rateStep (s : State) (c : Conn) : Conn :=
  let cap : Rat := rMax s c
  let lo : Rat := fld s (Reg.WOV_RC_LIMITS) 31 16
  let ai : Rat := c.step
  let c0 := { c with n := 0, m := 0, gain := fld s (Reg.WOV_RC_CFG) 23 20, step := fld s (Reg.WOV_RC_CFG) 15 0 }
  if c.n = 0 then c0
  else
    let f : Rat := (c.m : Rat) / (c.n : Rat)
    let est := c.est + (f - c.est) / ((2 ^ c.gain : Nat) : Rat)
    if 0 < c.m then { c0 with est := est, rate := min cap (max lo (c.rate * (1 - est / 2))), k := 0 }
    else { c0 with est := est, k := c.k + 1, rate := min cap (c.rate + ai * ((min (c.k + 1) 8 : Nat) : Rat)) }

/-- RATE_UPDATE (R222). -/
def execRateUpdate (n : Nat) (s : State) : Host.Outcome State Fault Refusal :=
  within (n < 2 ^ 20) (live s fun s =>
    match tget s.wove.conns n with
    | some c => if rcActive s c then modConn s n (rateStep s) else s
    | none => s)

end Sys2Proof.Machine
end

