-- ==== Sys2Proof/Machine/Quota.lean ====
section
/-! DEFINITION. What a function uses of each resource, and whether its quota allows more (R317 to R319). -/

namespace Sys2Proof.Machine

/-- The entries of a table that a test on the owner selects. -/
def countOwned {α : Type} (t : Tab α) (own : α → Bool) : Nat := (t.filter fun p => own p.2).length

/-- A function's own use of a resource code (R317). MSI-X, share and rate use read 0. -/
def ownUse (s : State) (fid code : Nat) : Nat :=
  match code with
  | 0 => if fid < 8 && (fnOf s fid).vfEnable then (fnOf s fid).numVfs else 0
  | 1 => countOwned s.wq.queues fun q => q.fid == fid
  | 2 => countOwned s.wq.cqs fun q => q.fid == fid
  | 4 => countOwned s.wove.conns fun c => c.fid == fid
  | 5 => countOwned s.wove.windows fun w => w.fid == fid
  | 6 => countOwned s.cph.sas fun a => a.valid && a.fid == fid
  | 7 => ((s.pkt.em.filter fun e => e.fid == fid).map fun e => if e.wide then 2 else 1).sum
  | 8 => (fnOf s fid).trigSlots.length
  | 9 => (fnOf s fid).cphPages.length
  | 10 => (fnOf s fid).banks.length
  | _ => 0

/-- The FIDs of a PF's VFs (R270). -/
def vfsOf (s : State) (pf : Nat) : List Nat := (List.range (quotaOf s pf 0)).map fun i => vfBase s pf + i

/-- The quotas a PF's VFs have of a resource, together; of MSI-X vectors, which every function has at reset, those that
were set (assumption 6, DEDUCED). -/
def vfQuotas (s : State) (pf code : Nat) : Nat :=
  ((vfsOf s pf).map fun v =>
    if code = 3 then (tget (fnOf s v).quota code).getD 0 else quotaOf s v code).sum

/-- The use of a PF's VFs, together. -/
def vfUse (s : State) (pf code : Nat) : Nat := ((vfsOf s pf).map fun v => ownUse s v code).sum

/-- The quota that governs a function's own use: a network PF's less what its VFs have (R317). -/
def ownQuota (s : State) (fid code : Nat) : Nat :=
  if 1 ≤ fid && fid < 8 && code != 0 then quotaOf s fid code - vfQuotas s fid code else quotaOf s fid code

/-- The per-function limit of a resource, if it has one (R317). -/
def fnLimit (code : Nat) : Option Nat :=
  match code with
  | 1 => some 1024
  | 2 => some 1024
  | 9 => some 256
  | _ => none

/-- The function may take `n` more of a resource. -/
def mayTake (s : State) (fid code n : Nat) : Bool :=
  ownUse s fid code + n ≤ ownQuota s fid code &&
  (match fnLimit code with | some l => decide (ownUse s fid code + n ≤ l) | none => true)

end Sys2Proof.Machine
end

