-- ==== Sys2Proof/Machine/Wove.lean ====
section
/-! DEFINITION. Wove, the receiving side (R209 to R217, R225, R232), the context cache (R204), and the commands of group
0x05 (R200 to R210, R225). -/

namespace Sys2Proof.Machine

/-! ## Opening a packet -/

/-- Open a packet under a key handle: its plaintext if the tag verifies (R224). RoCEv2 packets are not encrypted; they
carry an ICRC (R232). -/
def tryOpen (s : State) (c : Conn) (sa : Nat) (p : WovePkt) : Option (List Byte) :=
  if c.proto = 1 then (if p.tag = icrc p.hdr p.payload then some p.payload else none)
  else
    let a := saOf s sa
    aeadOpen 1 a.key (woveNonce a (beAt p.hdr 3 1) (beAt p.hdr 8 4)) p.hdr p.payload p.tag

/-- Header fields. -/
def whOp (h : List Byte) : Nat := beAt h 1 1
def whFlag (h : List Byte) (b : Nat) : Bool := beAt h 2 1 / 2 ^ b % 2 == 1
def whConn (h : List Byte) : Nat := beAt h 4 4 % 2 ^ 20
def whPsn (h : List Byte) : Nat := beAt h 8 4
def whSeqAux (h : List Byte) : Nat := beAt h 12 4
def whKey (h : List Byte) : Nat := beAt h 16 4
def whOff (h : List Byte) : Nat := beAt h 20 8
def whAux (h : List Byte) : Nat := beAt h 28 4

/-- An ACK or a NAK. -/
def isCtrl (h : List Byte) : Bool := whOp h == 0x10 || whOp h == 0x11

/-- Open a packet under the key of its phase (R225): the current RX key; the old one for PSNs below SWITCH; the next one,
which then becomes current. SWITCH is the lowest PSN of the new phase seen so far. -/
def openPacket (s : State) (c : Conn) (p : WovePkt) : Option (List Byte × Conn) :=
  let psn := whPsn p.hdr
  let ctrl := isCtrl p.hdr
  if whFlag p.hdr 4 == c.phaseRx then
    (tryOpen s c c.keyRx p).map fun b =>
      (b, if !ctrl && c.oldRx.isSome && psnDiff c psn c.switchRx < 0 then { c with switchRx := psn } else c)
  else
    let viaOld := match c.oldRx with
      | some k => if ctrl || psnDiff c psn c.switchRx < 0 then (tryOpen s c k p).map fun b => (b, c) else none
      | none => none
    match viaOld, c.nextRx with
    | some r, _ => some r
    | none, some k => (tryOpen s c k p).map fun b =>
        (b, { c with
          oldRx := some c.keyRx, keyRx := k, nextRx := none, phaseRx := !c.phaseRx, dueRx := true
          switchRx := if ctrl then (c.cum + 2 ^ 31) % 2 ^ 32 else psn })
    | none, none => none

/-- The key a packet is opened under, by its phase (R225). -/
def rxKey (c : Conn) (h : List Byte) : Nat :=
  if whFlag h 4 == c.phaseRx then c.keyRx
  else if c.oldRx.isSome && (isCtrl h || psnDiff c (whPsn h) c.switchRx < 0) then c.oldRx.getD c.keyRx
  else c.nextRx.getD c.keyRx

/-- Opcode 0x0B stands for RoCEv2's SEND with immediate, which only a peer sends (R232; assumption 52, DESIGN CHOICE). -/
def isSend (op : Nat) : Bool := op == 0x03 || op == 0x0B

/-- A packet type of the transport (R207, R232). -/
def knownOp (c : Conn) (op : Nat) : Bool :=
  (1 ≤ op && op ≤ 8) || op == 0x10 || op == 0x11 || (c.proto == 1 && (op == 0x81 || op == 0x0B))

/-- The fixed fields of a header are as R206 has them. -/
def headerGood (h : List Byte) : Bool := beAt h 0 1 == 0x10 && beAt h 2 1 % 16 == 0 && beAt h 4 4 / 2 ^ 20 % 64 == 0

/-- The payload length agrees with the packet type (R206, R207). -/
def lengthGood (c : Conn) (h : List Byte) (len : Nat) : Bool :=
  match whOp h with
  | 0x01 | 0x02 | 0x03 | 0x05 | 0x0B => if whFlag h 6 then len ≤ c.maxPayload else len == c.maxPayload
  | 0x04 => len == 0
  | 0x06 => len == 8
  | 0x07 => len == 16
  | 0x08 => len == 8
  | 0x10 => len == 80
  | 0x11 => len == 16
  | _ => true

/-- The header or the payload length breaks R206 or R207. -/
def badHeader (c : Conn) (h : List Byte) (len : Nat) : Bool :=
  !headerGood h || !knownOp c (whOp h) || !lengthGood c h len

/-! ## Receive side bookkeeping -/

/-- Mark a PSN received (R213): CUM advances over what is now complete; the counts of R217 rise; the old RX key is
retired when CUM reaches SWITCH (R225). -/
def markReceived (c : Conn) (psn : Nat) (ce : Bool) : Conn :=
  let set := insNat (psnDiff c psn c.cum).toNat c.recvd
  let k := (set.zipIdx.takeWhile fun p => p.1 == p.2).length
  let cum := (c.cum + k) % 2 ^ psnWidth c
  let c := { c with
    cum := cum, recvd := (set.filter fun d => k ≤ d).map (· - k)
    rcvCount := c.rcvCount + 1, ceCount := c.ceCount + ce.toNat, sinceAck := c.sinceAck + 1 }
  if c.oldRx.isSome && 0 ≤ psnDiff c cum c.switchRx then { c with oldRx := none } else c

/-- An arrival at distance `d` opens or fills a gap below the highest PSN received (R216). -/
def gapChange (c : Conn) (d : Int) : Bool :=
  match c.recvd.getLast? with
  | none => 0 < d
  | some h => (h : Int) + 1 < d || d < h

/-- The receive-queue entry a RECV_SEQ selects (R214): not posted, posted and not fetched yet, or fetched. -/
inductive RecvBuf where
  | notPosted
  | coming
  | buf (qid : Nat) (q : Queue) (e : QEntry)

/-- Find it: the RECV_SEQ-th entry from HEAD at creation. -/
def recvBuf (s : State) (c : Conn) (seq : Nat) : RecvBuf :=
  match qidOf s c.fid c.rq with
  | none => .notPosted
  | some qid =>
    match tget s.wq.queues qid with
    | none => .notPosted
    | some q =>
      let idx := (c.rqBase + seq) % qSize q
      let pos := (seq + 2 ^ 32 - c.recvNext) % 2 ^ 32
      if (q.tail + qSize q - q.head) % qSize q ≤ pos || !(q.state == 1 || q.state == 2) then .notPosted
      else
        match q.entries.find? fun e => e.idx == idx with
        | some e => if e.state = .held then .buf qid q e else .coming
        | none => .coming

/-- Change what is known of a RECV_SEQ. -/
def modRecv (s : State) (n seq : Nat) (f : WovRecv → WovRecv) : State :=
  modConn s n fun c => { c with recvs := tmod c.recvs seq {} f }

/-- The descriptor is there. -/
def RecvBuf.isBuf : RecvBuf → Bool
  | .buf .. => true
  | _ => false

/-- Write the receive completions that are due, in RECV_SEQ order: CUM has passed the LAST packet of the WR, and the
descriptor it consumes is there (R211, R215). -/
def recvComplete (s : State) (n : Nat) : Nat → State
  | 0 => s
  | fuel + 1 =>
    match tget s.wove.conns n with
    | none => s
    | some c =>
      match tget c.recvs c.recvNext with
      | none => s
      | some r =>
        match r.lastPsn with
        | none => s
        | some p =>
          if psnDiff c c.cum p ≤ 0 then s
          else if !(recvBuf s c c.recvNext).isBuf then s
          else
            let s := modConn s n fun c => { c with
              recvs := terase c.recvs c.recvNext, recvNext := (c.recvNext + 1) % 2 ^ 32 }
            match qidOf s c.fid c.rq with
            | none => s
            | some qid =>
              match tget s.wq.queues qid with
              | none => s
              | some q =>
                let s := flushQ (settleEntry s qid ((c.rqBase + c.recvNext) % qSize q) r.status r.detail
                  (toLe 4 r.placed ++ toLe 4 (r.imm.getD 0)) (if r.imm.isSome then 1 else 0)) qid
                recvComplete s n fuel

/-- A data packet with CE counts in WOV_RX_CE, whatever becomes of it (R234). -/
def ceSeen (s : State) (ce : Bool) : State := if ce then count s (Reg.WOV_RX_CE) else s

/-- A packet is NAKed and not received: with RNR, or out of RoCEv2's order (R220, R232, R234). -/
def nakOnly (s : State) (n psn code : Nat) (ce : Bool) : State :=
  sendNak (ceSeen (count s (Reg.WOV_RX_PKTS)) ce) n psn code

/-- A data packet placed or refused: it counts as received, receive completions follow, and an ACK goes out where it is
due (R213, R215, R216). -/
def received (s : State) (n : Nat) (h : List Byte) (ce ack : Bool) : State :=
  match tget s.wove.conns n with
  | none => s
  | some c =>
    let d := psnDiff c (whPsn h) c.cum
    let gap := gapChange c d
    let s := ceSeen (count s (Reg.WOV_RX_PKTS)) ce
    let s := modConn s n fun c => markReceived c (whPsn h) ce
    let s := recvComplete s n (c.recvs.length + 1)
    let since := match tget s.wove.conns n with | some c => c.sinceAck | none => 0
    let s := if ack && (whFlag h 5 || gap || fld s (Reg.WOV_TIMERS) 31 24 ≤ since) then sendAck s n else s
    kick s c.fid

/-! ## Windows (R209) -/

/-- Check a packet's window: the window, or the NAK code. `right` is the bit of the right the operation needs. -/
def windowCheck (s : State) (n : Nat) (c : Conn) (key off len right : Nat) : Except Nat Window :=
  match windowOf s key with
  | none => .error 0x02
  | some w =>
    if w.fid ≠ c.fid || (match w.scope with | some k => k != n | none => false) then .error 0x02
    else if w.len < off + len then .error 0x03
    else if w.rights / 2 ^ right % 2 = 0 then .error 0x04
    else .ok w

/-- The bytes of a packet as a broke sample holds them (R252). -/
def packetBytes (p : WovePkt) : List Byte := p.hdr ++ p.payload ++ p.tag

/-- A wove packet goes to broke. -/
def brokePacket (s : State) (mac reason : Nat) (p : WovePkt) : State :=
  broke s reason (packetBytes p) { kind := 0, num := mac }

/-- Refuse a packet with a NAK (R209, R211): a revoked window's packet goes to broke too, and a WRITE_IMM completes with
the status. -/
def refusePacket (s : State) (n mac : Nat) (p : WovePkt) (code : Nat) : State :=
  let h := p.hdr
  let s := if code = 0x02 then brokePacket s mac 0x0F p else s
  let s := if whOp h = 0x02 || isSend (whOp h) then
      let (st, d) := nakStatus code
      modRecv s n (whSeqAux h) fun r => { r with
        status := if r.status = 0 then st else r.status, detail := if r.status = 0 then d else r.detail
        lastPsn := if whFlag h 6 then some (whPsn h) else r.lastPsn }
    else s
  received (sendNak s n (whPsn h) code) n h p.ce false

/-- A packet's payload has no page to go to (R311): with PRI enabled the packet waits behind a Page Request, once, and is
not marked received meanwhile (R310); otherwise it is refused with ACCESS. -/
def faultPacket (s : State) (n mac fid : Nat) (pasid : Option Nat) (p : WovePkt) (held : Option HeldWrite := none) :
    State :=
  if !(fnOf s fid).pri then refusePacket s n mac p 0x03
  else if (fnOf s fid).pageReqs.any fun r => r.pkt.any fun x =>
      whConn x.2.hdr == n && whPsn x.2.hdr == whPsn p.hdr then s
  else
    sendPageReqs (modFn s fid fun f => { f with
      nextReq := (f.nextReq + 1) % 512
      pageReqs := f.pageReqs ++ [{
        req := f.nextReq, pasid := pasid, qid := 65536, entry := 0, sent := false, pkt := some (mac, p), held := held }] }) fid

/-- Write the payload of a WRITE or WRITE_IMM that passed its window check (R210, R214). -/
def writeHeld (s : State) (n : Nat) (p : WovePkt) (w : HeldWrite) : State :=
  let h := p.hdr
  let s := if w.bytes.isEmpty then s else hostWrite s w.fid w.pasid w.addr w.bytes
  let s := if whOp h = 0x02 then
      modRecv s n (whSeqAux h) fun r => { r with
        placed := r.placed + w.bytes.length
        lastPsn := if whFlag h 6 then some (whPsn h) else r.lastPsn
        imm := if whFlag h 6 then some (whAux h) else r.imm }
    else s
  received s n h p.ce true

/-- What a WRITE or WRITE_IMM writes through its window. -/
def writeOf (p : WovePkt) (w : Window) (b : List Byte) : HeldWrite :=
  { key := whKey p.hdr, fid := w.fid, pasid := w.pasid, addr := w.base + whOff p.hdr, bytes := b }

/-- Place a WRITE or WRITE_IMM payload whose window was found good (R214), or hold it for its page (R311). -/
def placeWrite (s : State) (n mac : Nat) (p : WovePkt) (w : Window) (b : List Byte) : State :=
  if !b.isEmpty && !p.translated then faultPacket s n mac w.fid w.pasid p (some (writeOf p w b))
  else writeHeld s n p (writeOf p w b)

/-- Place a SEND payload (R214, R215): what exceeds the buffers is not placed, and the sender is NAKed. -/
def placeSend (s : State) (n mac : Nat) (p : WovePkt) (b : List Byte) (q : Queue) (e : QEntry) : State :=
  let h := p.hdr
  let fit := b.take (e.len - whOff h)
  if !fit.isEmpty && !p.translated then faultPacket s n mac q.fid q.pasid p
  else
  let s := if fit.isEmpty then s else writeSge s q.fid q.pasid (skipSge e.sge (whOff h)) fit
  let s := modRecv s n (whSeqAux h) fun r => { r with
    placed := r.placed + fit.length, lastPsn := if whFlag h 6 then some (whPsn h) else r.lastPsn
    imm := if whFlag h 6 && whOp h == 0x0B then some (whAux h) else r.imm }
  if fit.length < b.length then refusePacket s n mac p 0x06 else received s n h p.ce true

/-- A READ_REQ or ATOMIC joins what the responder answers (R229, R230). -/
def takeRequest (s : State) (n mac : Nat) (c : Conn) (p : WovePkt) (b : List Byte) : State :=
  let h := p.hdr
  let op := whOp h
  let len := if op = 0x04 then whAux h else 8
  if c.maxRd ≤ c.resp.length then refusePacket s n mac p 0x07
  else
    match windowCheck s n c (whKey h) (whOff h) len (if op = 0x04 then 0 else 2) with
    | .error k => refusePacket s n mac p k
    | .ok _ =>
      if op != 0x04 && whOff h % 8 != 0 then refusePacket s n mac p 0x05
      else
        let s := modConn s n fun c => { c with resp := c.resp ++ [{
          op := op, reqPsn := whPsn h, key := whKey h, off := whOff h, len := len, operand := b }] }
        received s n h p.ce true

/-- A response whose data has been placed, in `t`, or has no page to go to (R214, R230, R311). -/
def placeResponse (s : State) (n mac : Nat) (c : Conn) (p : WovePkt) (t : State) : State :=
  if p.translated then received (completeWrs t n) n p.hdr p.ce true
  else faultPacket s n mac c.fid (((qidOf s c.fid c.sq).bind fun q => tget s.wq.queues q).bind Queue.pasid) p

/-- A data packet in the window that was not received before (R213): the rest of its way. -/
def placePacket (s : State) (n mac : Nat) (c : Conn) (p : WovePkt) (b : List Byte) : State :=
  let h := p.hdr
  let wait := fun (s : State) => { s with wove := { s.wove with waiting := s.wove.waiting ++ [(mac, p)] } }
  let inWindow := fun (go : Window → State) =>
    match windowCheck s n c (whKey h) (whOff h) b.length 1 with
    | .error k => refusePacket s n mac p k
    | .ok w => go w
  let inBuffer := fun (go : Queue → QEntry → State) =>
    match recvBuf s c (whSeqAux h) with
    | .notPosted => nakOnly s n (whPsn h) 0x01 p.ce
    | .coming => wait s
    | .buf _ q e => go q e
  match whOp h with
  | 0x01 => inWindow fun w => placeWrite s n mac p w b
  | 0x02 => inWindow fun w => inBuffer fun _ _ => placeWrite s n mac p w b
  | 0x03 => inBuffer fun q e => placeSend s n mac p b q e
  | 0x0B => inBuffer fun q e => placeSend s n mac p b q e
  | 0x05 => placeResponse s n mac c p (takeResponse s n c 0x05 (whSeqAux h) (whOff h) b)
  | 0x08 => placeResponse s n mac c p (takeResponse s n c 0x08 (whSeqAux h) 0 b)
  | _ => takeRequest s n mac c p b

/-- A duplicate (R213, R229): acknowledged again; a duplicate ATOMIC request is answered from the stored result. -/
def dupPacket (s : State) (n : Nat) (h : List Byte) : State :=
  let s := modConn (count s (Reg.WOV_RX_DUP)) n fun c => { c with
    unacked := c.unacked.map fun t =>
      if t.op = 0x08 && t.seqAux == whPsn h && !t.acked && (whOp h == 0x06 || whOp h == 0x07) then
        { t with resend := true } else t }
  sendAck s n

/-- A CNP at most once per 50 µs on a CE mark (R232). -/
def sendCnp (s : State) (n : Nat) (c : Conn) (ce : Bool) : State :=
  let due := match c.cnpAt with | some t => t + 100000 ≤ s.deviceTime.toNat | none => true
  if c.proto = 1 && ce && due then
    modConn (sendCtrl s n 0x81 []) n fun c => { c with cnpAt := some s.deviceTime.toNat }
  else s

/-- What a packet with a bad header draws: a discard (R206); of RoCEv2, NO_TARGET where it is none that is supported, and
a NAK where a request breaks a limit (R232). -/
def badPacket (s : State) (n mac : Nat) (c : Conn) (p : WovePkt) : State :=
  let h := p.hdr
  if c.proto ≠ 1 then count s (Reg.WOV_RX_BAD_HDR)
  else if headerGood h && knownOp c (whOp h) && !isCtrl h && whOp h != 0x05 && whOp h != 0x08 && whOp h != 0x81 then
    nakOnly s n (whPsn h) 0x06 p.ce
  else brokePacket s mac 0x0D p

/-- The reason for which a function's packets go to broke, whatever they are: it is lost or halted (R117, R213). -/
def fnGone (s : State) (fid : Nat) : Option Nat :=
  if (linkRec s (linkOf s fid)).lost then some 0x11 else if fnHalted s fid then some 0x12 else none

/-- Take one packet (R213). With ROCE_EN clear the device accepts no RoCEv2 packet (R232). One whose key is absent goes to
broke (R243). -/
def takePacket (s : State) (mac : Nat) (p : WovePkt) : State :=
  let h := p.hdr
  let n := whConn h
  match tget s.wove.conns n with
  | none => brokePacket s mac 0x0D p
  | some c =>
    if c.proto = 1 && !flag s (Reg.WOV_CFG) 1 then s
    else if c.state = 3 then brokePacket s mac 0x0D p
    else if let some r := fnGone s c.fid then brokePacket s mac r p
    else if !c.cached then
      { missContext s n with wove := { (missContext s n).wove with waiting := s.wove.waiting ++ [(mac, p)] } }
    else
      if c.proto ≠ 1 && !saPresent s (rxKey c h) then brokePacket s mac 0x0D p
      else
      match openPacket s c p with
      | none => brokePacket s mac 0x0E p
      | some (b, c') =>
        if badHeader c' h b.length then badPacket s n mac c' p
        else
          let s := modConn s n fun _ => c'
          let s := sendCnp s n c' p.ce
          if whOp h = 0x10 then takeAck s n c' b
          else if whOp h = 0x11 then takeNak s n c' b
          else if whOp h = 0x81 then modConn s n fun c => { c with n := c.n + 1, m := c.m + 1 }
          else
            let d := psnDiff c' (whPsn h) c'.cum
            if 512 ≤ d then sendAck (ceSeen (count s (Reg.WOV_RX_OUT_OF_WIN)) p.ce) n
            else if d < 0 || c'.recvd.contains d.toNat then dupPacket (ceSeen s p.ce) n h
            else if c'.proto = 1 && d != 0 then nakOnly s n c'.cum 0x08 p.ce
            else if !(fnOf s c'.fid).bme then brokePacket (ceSeen s p.ce) mac 0x10 p
            else placePacket s n mac c' p b

/-- A packet of a RoCEv2 connection, which no lane protects. -/
def plainPacket (s : State) (p : WovePkt) : Bool := (tget s.wove.conns (whConn p.hdr)).any fun c => c.proto == 1

/-- A wove packet comes through the lane of its port (R237, R261). -/
def arrive (s : State) (mac : Nat) (p : WovePkt) : State :=
  if plainPacket s p then takePacket s mac p
  else
    match rideLane s false mac (packetBytes p).length with
    | none => brokePacket s mac 0x0B p
    | some s => takePacket s mac p

/-- WOVE_PACKET_RECEIVE (R213). -/
def execWovePacketReceive (mac : Nat) (p : WovePkt) (s : State) : Host.Outcome State Fault Refusal :=
  within (mac < macCount s.variant) (live s fun s =>
    if flag s (Reg.WOV_CFG) 0 && dataOn s && p.hdr.length == 32 then arrive s mac p else s)

/-- Take again the packets that waited. -/
def retryPackets (s : State) (sel : WovePkt → Bool) : State :=
  let l := s.wove.waiting.filter fun x => sel x.2
  let s := { s with wove := { s.wove with waiting := s.wove.waiting.filter fun x => !sel x.2 } }
  l.foldl (fun s x => takePacket s x.1 x.2) s

/-! ## The context cache (R204) -/

/-- HBM_LAST_ERR of a location. -/
def hbmErrWord (l : HbmLoc) (uncorr : Bool) : Nat :=
  (uncorr.toNat * 2 ^ 31 + l.pch % 32 * 2 ^ 24 + l.bank % 256 * 2 ^ 16 + l.row % 65536) * 2 ^ 32 + l.col % 65536

/-- An uncorrectable HBM read (R416): UE is set and recorded with its location. -/
def hbmUe (s : State) (stack : Nat) (l : HbmLoc) : State :=
  let s := wr64 s (Reg.HBM_LAST_ERR stack) (hbmErrWord l true)
  let s := count (hwSet s (Reg.HBM_STATUS stack) 1 23 16) (Reg.HBM_UE_COUNT stack)
  logErr s 0x0805 2 (0x810 + stack) [hbmErrWord l true]

/-- A location the device chose: free values. -/
def freeLoc (s : State) : HbmLoc × State :=
  let (v, s) := free s
  ({ pch := v.toNat % 32, bank := v.toNat / 32 % 256, row := v.toNat / 2 ^ 13 % 65536, col := v.toNat / 2 ^ 29 % 65536 }, s)

/-- Make room in the cache of 32,768 contexts: one, of the device's choice, leaves it. -/
def cacheRoom (s : State) : State :=
  let l := s.wove.conns.filter fun p => p.2.cached
  if l.length < 32768 then s
  else
    let (v, s) := free s
    match l[v.toNat % l.length]? with
    | some (k, _) => modConn s k fun c => { c with cached := false }
    | none => s

/-- WOVE_CONTEXT_LOADED (R204): the context arrives and what waited proceeds; a context that cannot be read makes the
connection absent for it (R416). -/
def execWoveContextLoaded (n : Nat) (good : Bool) (s : State) : Host.Outcome State Fault Refusal :=
  within (n < 2 ^ 20) (live s fun s =>
    match tget s.wove.conns n with
    | none => s
    | some c =>
      if c.cached then s
      else if good then
        retryPackets (modConn (cacheRoom s) n fun c => { c with cached := true, missed := false }) fun p => whConn p.hdr == n
      else
        let (l, s) := freeLoc s
        let s := hbmUe (modConn s n fun c => { c with missed := false }) 0 l
        let w := s.wove.waiting.filter fun x => whConn x.2.hdr == n
        let s := { s with wove := { s.wove with waiting := s.wove.waiting.filter fun x => whConn x.2.hdr != n } }
        w.foldl (fun s x => brokePacket s x.1 0x0D x.2) s)

/-- CONN_DRAIN_END (R201). -/
def execConnDrainEnd (n : Nat) (s : State) : Host.Outcome State Fault Refusal :=
  within (n < 2 ^ 20) (live s fun s =>
    match tget s.wove.conns n with
    | some c => if c.state = 2 && (openWrs s c).isEmpty then freeConn s n else s
    | none => s)

/-! ## Commands -/

/-- Slots of WOV_CONN_CREATE ahead of MAC: an IPv6 address takes two slots (R364). -/
def connAddr (p : List Byte) : Nat := if slot p 2 = 6 then 7 else 5

/-- The parameters from MAC on. -/
def cslot (p : List Byte) (i : Nat) : Nat := slot p (connAddr p + i)

/-- Byte offset of such a parameter. -/
def coff (p : List Byte) (i : Nat) : Nat := 8 * (connAddr p + i)

/-- An SA that exists, by its handle. -/
def saExists (s : State) (n : Nat) : Bool := (saOf s n).valid && !s.cph.bad.contains n

/-- The queue of a function's local index has the type and serves no connection. -/
def queueFree (s : State) (fid loc type : Nat) : Bool :=
  match (qidOf s fid loc).bind fun q => tget s.wq.queues q with
  | some q => q.type == type && q.conn.isNone
  | none => false

/-- The overhead of R205 for the packets of a connection with these parameters. -/
def connOverhead (p : List Byte) : Nat := (if slot p 2 = 6 then 114 else 94) + (if cslot p 2 = 0 then 0 else 4)

/-- The payload sizes of RoCEv2 (R232). -/
def roceMtu (n : Nat) : Bool := n == 256 || n == 512 || n == 1024 || n == 2048 || n == 4096

/-- The number a new connection takes: one never used, of the device's choice, and otherwise the one freed longest ago
(R202). -/
def newConn (s : State) : Option Nat × State :=
  let (k, s') := pickFree s (2 ^ 20) fun n => (tget s.wove.conns n).isSome || s.wove.freed.contains n
  match k with
  | some k => (some k, s')
  | none => match s.wove.freed with
    | k :: t => (some k, { s with wove := { s.wove with freed := t } })
    | [] => (none, s)

/-- WOV_CONN_CREATE. -/
def connCreateBody : OpBody where
  lenOk p := p.length == 8 * (connAddr p + 17)
  objs c s :=
    let p := c.params
    (cslot p 0 < macCount s.variant || 8 ≤ cslot p 0) &&
    (qidOf s c.target (cslot p 8)).isSome && (qidOf s c.target (cslot p 9)).isSome &&
    (slot p 0 == 1 || [12, 13].all fun i =>
      saExists s (cslot p i) && mayName s c.pf (saOf s (cslot p i)).fid)
  own c s := ownTarget c && (slot c.params 0 == 1 || [12, 13].all fun i => (saOf s (cslot c.params i)).fid == c.pf)
  run c s :=
    let p := c.params
    let roce := slot p 0 == 1
    let v6 := slot p 2 == 6
    let w := if roce then 2 ^ 24 else 2 ^ 32
    if roce && s.grade.cur == .sealed && !espCovers s c.target (cslot p 12) (cslot p 13) then .finish (refuse stWrongGrade 3) s
    else
    checked [(0, slot p 0 ≤ 1), (coff p 0, cslot p 0 < 8), (8, slot p 1 < 2 ^ 20), (16, slot p 2 == 4 || v6),
        (24, v6 || slotBe p 3 < 2 ^ 32), (32, v6 || slotBe p 4 < 2 ^ 32),
        (coff p 1, slotBe p (connAddr p + 1) < 2 ^ 48), (coff p 2, cslot p 2 ≤ 4094), (coff p 3, cslot p 3 < 8),
        (coff p 4, cslot p 4 < 64), (coff p 5, cslot p 5 < 65536),
        (coff p 6, 1 ≤ cslot p 6 && cslot p 6 ≤ (if roce then 1 else 64)),
        (coff p 7, 256 ≤ cslot p 7 && cslot p 7 ≤ 8192 && cslot p 7 % 64 == 0 && (!roce || roceMtu (cslot p 7)) &&
          cslot p 7 + connOverhead p ≤ maxFrame s (cslot p 0)),
        (coff p 8, queueFree s c.target (cslot p 8) 2), (coff p 9, queueFree s c.target (cslot p 9) 3),
        (coff p 10, cslot p 10 < 2 ^ 32), (coff p 11, cslot p 11 < 2 ^ 32),
        (coff p 12, roce || ((saOf s (cslot p 12)).typ == 5 && (saOf s (cslot p 12)).fid == c.target)),
        (coff p 13, roce || ((saOf s (cslot p 13)).typ == 5 && (saOf s (cslot p 13)).fid == c.target)),
        (coff p 14, cslot p 14 ≤ 1), (coff p 15, cslot p 15 < 65536),
        (coff p 16, 1 ≤ cslot p 16 && cslot p 16 ≤ 16)] s fun _ =>
      if !mayTake s c.target 4 1 then .finish (refuse stNoResource) s
      else
        match newConn (cacheRoom s), qidOf s c.target (cslot p 8), qidOf s c.target (cslot p 9) with
        | (some n, s), some sq, some rq =>
          let rMaxV := if cslot p 15 = 0 then portRate s (cslot p 0) * 8 else cslot p 15
          let init := fld s (Reg.WOV_RC_LIMITS) 15 0
          let k : Conn := {
            fid := c.target, proto := slot p 0, peer := slot p 1, ipVer := slot p 2
            localAddr := if v6 then beNat (slotBytes p 3 16) else slotBe p 3
            peerAddr := if v6 then beNat (slotBytes p 5 16) else slotBe p 4
            mac := cslot p 0, nextHop := slotBe p (connAddr p + 1), vid := cslot p 2, tc := cslot p 3, dscp := cslot p 4
            sport := cslot p 5, paths := cslot p 6, maxPayload := cslot p 7, sq := cslot p 8, rq := cslot p 9
            rcEn := cslot p 14 == 1, rMax := cslot p 15, maxRd := cslot p 16, cached := true
            nextPsn := cslot p 10 % w, cumTx := cslot p 10 % w, cum := cslot p 11 % w, phaseStart := cslot p 10 % w
            gain := fld s (Reg.WOV_RC_CFG) 23 20, step := fld s (Reg.WOV_RC_CFG) 15 0
            rqBase := match tget s.wq.queues rq with | some q => q.head | none => 0
            keyTx := cslot p 12, keyRx := cslot p 13
            rate := if init = 0 then (rMaxV : Rat) else ((min init rMaxV : Nat) : Rat) }
          let s := { s with wove := { s.wove with conns := tset s.wove.conns n k } }
          let s := modQ (modQ s sq fun q => { q with conn := some n }) rq fun q => { q with conn := some n }
          grant s [BitVec.ofNat 32 n]
        | (_, s), _, _ => .finish (refuse stNoResource) s

/-- WOV_CONN_CREATE (R200). -/
def execWovConnCreate (pf : Nat) (buf : ParamBuf) (s : State) : Host.Outcome State Fault Refusal :=
  joryen 0x0500 connCreateBody pf buf s

/-- The connection of slot 0 exists and may be named. -/
def connObj (c : Ctx) (s : State) : Bool :=
  match tget s.wove.conns (slot c.params 0) with
  | some k => mayName s c.pf k.fid
  | none => false

/-- It belongs to the issuer. -/
def connOwn (c : Ctx) (s : State) : Bool :=
  ownTarget c && (match tget s.wove.conns (slot c.params 0) with | some k => k.fid == c.pf | none => false)

/-- WOV_CONN_CLOSE. -/
def connCloseBody : OpBody where
  lenOk := slots 2
  objs := connObj
  own := connOwn
  run c s :=
    let n := slot c.params 0
    checked [(8, slot c.params 1 ≤ 1)] s fun _ =>
      match tget s.wove.conns n with
      | none => .finish (refuse stDenied) s
      | some k =>
        if slot c.params 1 = 1 || k.state == 3 then grant (freeConn s n)
        else grant (modConn s n fun k => { k with state := 2 })

/-- WOV_CONN_CLOSE (R201). -/
def execWovConnClose (pf : Nat) (buf : ParamBuf) (s : State) : Host.Outcome State Fault Refusal :=
  joryen 0x0501 connCloseBody pf buf s

/-- WOV_CONN_REKEY: direction 0 transmit, 1 receive. -/
def connRekeyBody : OpBody where
  lenOk := slots 4
  objs c s := connObj c s && saExists s (slot c.params 2) && mayName s c.pf (saOf s (slot c.params 2)).fid
  own c s := connOwn c s && (saOf s (slot c.params 2)).fid == c.pf
  run c s :=
    let p := c.params
    let n := slot p 0
    checked [(8, slot p 1 ≤ 1), (16, (saOf s (slot p 2)).typ == 5 &&
        ((tget s.wove.conns n).map Conn.fid) == some (saOf s (slot p 2)).fid), (24, slot p 3 ≤ 1)] s fun _ =>
      grant (modConn s n fun k =>
        if slot p 1 = 0 then
          { k with nextTx := some (slot p 2), rekeyNow := slot p 3 == 1, stalled := false, dueTx := false }
        else { k with nextRx := some (slot p 2), dueRx := false })

/-- WOV_CONN_REKEY (R225). -/
def execWovConnRekey (pf : Nat) (buf : ParamBuf) (s : State) : Host.Outcome State Fault Refusal :=
  joryen 0x0502 connRekeyBody pf buf s

/-- The connection passes a filter: 0 all, 1 ERROR, 2 REKEY_DUE. -/
def connFilter (f : Nat) (k : Conn) : Bool :=
  match f with | 0 => true | 1 => k.state == 3 | _ => k.dueTx || k.dueRx

/-- `n` bytes of free values. -/
def freeRecords (s : State) (n : Nat) : List Byte × State :=
  let (b, s) := freeBytes s (4 * n)
  (b.take (32 * n), s)

/-- WOV_CONN_QUERY: up to 128 records of the target's connections from the cursor on; the layout of a record, which the
spec does not give, makes its bytes free values. -/
def connQueryBody : OpBody where
  lenOk := slots 2
  own c _ := ownTarget c
  run c s :=
    checked [(0, slot c.params 0 ≤ 2), (8, slot c.params 1 < 2 ^ 20)] s fun _ =>
      let l := (s.wove.conns.filter fun p =>
        p.2.fid == c.target && connFilter (slot c.params 0) p.2 && slot c.params 1 ≤ p.1).take 128
      let (b, s) := freeRecords s l.length
      grant s [] b

/-- WOV_CONN_QUERY (R225). -/
def execWovConnQuery (pf : Nat) (buf : ParamBuf) (s : State) : Host.Outcome State Fault Refusal :=
  joryen 0x0503 connQueryBody pf buf s

/-- The index a new window takes: one never opened, of the device's choice, and otherwise the one free the longest
(R208). -/
def newWindow (s : State) : Option Nat × State :=
  let (k, s') := pickFree s (2 ^ 22) fun n => (tget s.wove.windows n).isSome || s.wove.winFreed.contains n
  match k with
  | some k => (some k, s')
  | none => match s.wove.winFreed with
    | k :: t => (some k, { s with wove := { s.wove with winFreed := t } })
    | [] => (none, s)

/-- The generation after another: from 0x3FF to 0x001 (R208). -/
def nextGen (g : Nat) : Nat := if 0x3FF ≤ g then 1 else g + 1

/-- WOV_WIN_OPEN: PASID, base, length, rights (bit 0 read, 1 write, 2 atomic), scope. -/
def winOpenBody : OpBody where
  lenOk := slots 5
  objs c s :=
    match slotOpt c.params 4 with
    | none => true
    | some n => match tget s.wove.conns n with
      | some k => mayName s c.pf k.fid
      | none => false
  own c s := ownTarget c &&
    (match slotOpt c.params 4 with
     | none => true
     | some n => match tget s.wove.conns n with | some k => k.fid == c.pf | none => false)
  run c s :=
    let p := c.params
    checked [(0, (slotOpt p 0).all fun x => x < 2 ^ 20), (8, slot p 1 % 64 == 0),
        (16, 64 ≤ slot p 2 && slot p 2 ≤ 2 ^ 48 && slot p 1 + slot p 2 ≤ 2 ^ 64), (24, slot p 3 < 8),
        (32, (slotOpt p 4).all fun n => match tget s.wove.conns n with | some k => k.fid == c.target | none => false)] s fun _ =>
      if !mayTake s c.target 5 1 then .finish (refuse stNoResource) s
      else
        match newWindow s with
        | (none, s) => .finish (refuse stNoResource) s
        | (some i, s) =>
          let g := nextGen (tgetD s.wove.gens i 0)
          let w : Window := {
            fid := c.target, pasid := slotOpt p 0, base := slot p 1, len := slot p 2, rights := slot p 3
            scope := slotOpt p 4, gen := g }
          grant { s with wove := { s.wove with windows := tset s.wove.windows i w, gens := tset s.wove.gens i g } }
            [BitVec.ofNat 32 (i * 1024 + g)]

/-- WOV_WIN_OPEN (R208). -/
def execWovWinOpen (pf : Nat) (buf : ParamBuf) (s : State) : Host.Outcome State Fault Refusal :=
  joryen 0x0508 winOpenBody pf buf s

/-- Close a window at the commit point (R210): responses under way give way to a NAK. -/
def revoke (s : State) (key : Nat) : State :=
  let i := key / 1024
  let s := { s with wove := { s.wove with windows := terase s.wove.windows i, winFreed := s.wove.winFreed ++ [i] } }
  s.wove.conns.foldl (fun s p =>
    let (hit, rest) := p.2.resp.partition fun r => r.key == key
    if hit.isEmpty then s
    else hit.foldl (fun s r => sendNak s p.1 r.reqPsn 0x02) (modConn s p.1 fun c => { c with resp := rest })) s

/-- A packet that passed the check of a window waits for its page. -/
def heldFor (s : State) (key : Nat) : Bool :=
  s.host.fns.any fun p => p.2.pageReqs.any fun r => r.held.any fun w => w.key == key

/-- The replies of revocations whose last held packet is gone are due (R210). -/
def revokesDone (s : State) : State :=
  s.wove.revoking.foldl (fun s p =>
    if heldFor s p.2 || p.1 = 8 then s
    else settle { s with wove := { s.wove with revoking := terase s.wove.revoking p.1 } } p.1 0x0509 ok) s

/-- WOV_WIN_REVOKE: the window closes at once; the reply waits for the writes of packets checked before (R210). -/
def winRevokeBody : OpBody where
  lenOk := slots 1
  objs c s := slot c.params 0 < 2 ^ 32 &&
    (match windowOf s (slot c.params 0) with | some w => mayName s c.pf w.fid | none => false)
  own c s := ownTarget c && (match windowOf s (slot c.params 0) with | some w => w.fid == c.pf | none => false)
  run c s :=
    let key := slot c.params 0
    let t := revoke s key
    if heldFor t key then
      .wait true { t with wove := { t.wove with revoking := tset t.wove.revoking (if c.ring then 8 else c.pf) key } }
    else grant t

/-- WOV_WIN_REVOKE (R210). -/
def execWovWinRevoke (pf : Nat) (buf : ParamBuf) (s : State) : Host.Outcome State Fault Refusal :=
  joryen 0x0509 winRevokeBody pf buf s

end Sys2Proof.Machine
end

