-- ==== Sys2Proof/Machine/Cipher.lean ====
section
/-! DEFINITION. Cipher lanes and security associations (R235 to R254, R258 to R262, R267): the SA commands, inline MACsec
and ESP, port protection, joining, the spare, and the user pages. -/

namespace Sys2Proof.Machine

/-! ## SA records (R240) -/

/-- Key bytes of an algorithm (R236). -/
def keyLen (alg : Nat) : Nat := match alg with | 0 => 16 | 3 => 32 | 4 => 64 | _ => 32

/-- The key an SA uses. -/
def saKey (a : Sa) : List Byte := a.key.take (keyLen a.alg)

/-- FLAGS of an SA. -/
def saFlag (a : Sa) (b : Nat) : Bool := bits a.flags b b == 1
def saXpn (a : Sa) : Bool := saFlag a 31
def saConf (a : Sa) : Bool := saFlag a 30
def saOffset (a : Sa) : Nat := match bits a.flags 29 28 with | 1 => 30 | 2 => 50 | _ => 0
def saTlsVer (a : Sa) : Nat := bits a.flags 23 20
def saDuBytes (a : Sa) : Nat := 2 ^ (bits a.flags 19 16 + 9)

/-- The SA of a record of R240: the 8-byte header, then the 104-byte body in clear. In an XTS SA the key takes bytes 0
to 63 and nothing else stands in bytes 32 to 79. -/
def saOfRecord (r : List Byte) : Sa :=
  let h := leAt r 0 8
  let b := r.drop 8
  let alg := nbits h 58 56
  let xts := alg == 3 || alg == 4
  { valid := true, typ := nbits h 62 59, alg := alg, fid := nbits h 55 44, writeCnt := nbits h 43 0
    key := if xts then slice b 0 64 else slice b 0 32
    salt := if xts then [] else slice b 32 12
    seq := if xts then 0 else leAt b 44 8
    soft := if xts then 0 else leAt b 52 8
    hard := if xts then 0 else leAt b 60 8
    sci := if xts then 0 else beAt b 68 8
    ssci := if xts then 0 else beAt b 76 4
    flags := BitVec.ofNat 32 (leAt b 80 4), replayWin := leAt b 84 4 }

/-- The clear header and the body of an SA's record. -/
def saHeader (a : Sa) : List Byte :=
  toLe 8 (a.valid.toNat * 2 ^ 63 + a.typ * 2 ^ 59 + a.alg * 2 ^ 56 + a.fid * 2 ^ 44 + a.writeCnt)
def saBody (a : Sa) : List Byte :=
  let pad := fun (n : Nat) (b : List Byte) => (b ++ List.replicate n 0).take n
  let front := if a.alg = 3 ∨ a.alg = 4 then pad 64 a.key ++ List.replicate 16 0
    else pad 32 a.key ++ pad 12 a.salt ++ toLe 8 a.seq ++ toLe 8 a.soft ++ toLe 8 a.hard ++ toBe 8 a.sci ++ toBe 4 a.ssci
  front ++ toLe 4 a.flags.toNat ++ toLe 4 a.replayWin ++ List.replicate 16 0

/-- The replay-and-statistics record of an SA: 104 bytes, and zeros up to 128. -/
def saStats (a : Sa) : List Byte :=
  toLe 8 a.highest ++ toLe 64 a.bitmap ++ toLe 8 a.pktsOk ++ toLe 8 a.octetsOk ++ toLe 8 a.authFail ++ toLe 8 a.replay ++
  List.replicate 24 0

/-- The SA-wrapping key, of key slot 1, and the nonce of a record (R240). -/
def wrapKey (s : State) : List Byte := tgetD s.boot.keys 1 []
def wrapNonce (n writeCnt : Nat) : List Byte := toBe 4 n ++ toBe 8 (writeCnt % 2 ^ 44)

/-- Write an SA to HBM_0 as it stands: its wrapped record, and its statistics (R239, R240). -/
def putRecord (s : State) (n : Nat) : State :=
  let a := saOf s n
  let (ct, tag) := aeadSeal 1 (wrapKey s) (wrapNonce n a.writeCnt) (saHeader a) (saBody a)
  { s with cph := { s.cph with
    records := tset s.cph.records n (saHeader a ++ ct ++ tag), stats := tset s.cph.stats n (saStats a) } }

/-- A record in HBM_0 passes its tag under the wrapping key (R240). -/
def recordOpens (s : State) (n : Nat) : Bool :=
  match tget s.cph.records n with
  | some r => (aeadOpen 1 (wrapKey s) (wrapNonce n (leAt r 0 8)) (r.take 8) (slice r 8 104) (slice r 112 16)).isSome
  | none => false

/-- The record of an SA without KEY and SALT (R242), 128 bytes, and its replay-and-statistics record, 104 bytes. -/
def saView (a : Sa) : List Byte :=
  toLe 8 (a.valid.toNat * 2 ^ 63 + a.typ * 2 ^ 59 + a.alg * 2 ^ 56 + a.fid * 2 ^ 44 + a.writeCnt) ++
  List.replicate 44 0 ++ toLe 8 a.seq ++ toLe 8 a.soft ++ toLe 8 a.hard ++ toBe 8 a.sci ++ toBe 4 a.ssci ++
  toLe 4 a.flags.toNat ++ toLe 4 a.replayWin ++ List.replicate 32 0 ++
  toLe 8 a.highest ++ toLe 64 a.bitmap ++ toLe 8 a.pktsOk ++ toLe 8 a.octetsOk ++ toLe 8 a.authFail ++ toLe 8 a.replay

/-- The TYPE, the ALG and the fields of a record suit each other (R236, R240, R244). -/
def saGood (a : Sa) : Bool :=
  1 ≤ a.typ && a.typ ≤ 8 && a.alg ≤ 4 &&
  (match a.typ with
    | 5 => a.alg == 1
    | 6 | 7 => a.alg ≤ 2 && (saTlsVer a == 3 || saTlsVer a == 4)
    | 8 => true
    | _ => a.alg ≤ 1) &&
  bits a.flags 29 28 != 3 &&
  (a.typ != 4 || a.replayWin == 0 || (32 ≤ a.replayWin && a.replayWin ≤ 512)) &&
  (!saSends a || saXpn a || a.hard ≤ 2 ^ 32)

/-! ## The SA commands -/

/-- The SA belongs to the target, or is absent where `free` allows it. -/
def saObj (free : Bool) (c : Ctx) (s : State) : Bool :=
  let n := slot c.params 0
  if saExists s n then (saOf s n).fid == c.target else free

/-- The body of a record that the command wrapped under the key-transport key (R242): key slot 4, in state SESSION. -/
def unwrapRecord (s : State) (r : List Byte) : Option (List Byte) :=
  ((tget s.boot.keys 4).bind fun k => keyUnwrap k (slice r 8 112)).map fun b => r.take 8 ++ b

/-- Write an SA (R243): SEQ stays unless SEQ_LOAD, WRITE_CNT rises, and the statistics of an SA that was absent start
afresh; SEQ_LOAD restarts the replay state. A transmit SA whose SEQ is at or past its SOFT_SEQ has reached it (R244;
assumption 103, DEDUCED). -/
def writeSa (s : State) (n : Nat) (a : Sa) (load : Bool) : State :=
  let old := saOf s n
  let base : Sa := if old.valid then old else { seq := old.seq }
  let a := { a with
    gen := if load || !old.valid then old.gen + 1 else old.gen
    writeCnt := old.writeCnt + 1, seq := if load then a.seq else base.seq
    highest := if load then 0 else base.highest, bitmap := if load then 0 else base.bitmap
    pktsOk := base.pktsOk, octetsOk := base.octetsOk, authFail := base.authFail, replay := base.replay }
  let s := putRecord { s with cph := { s.cph with
    sas := tset s.cph.sas n a, bad := s.cph.bad.filter (· != n), changed := s.cph.changed.filter (· != n) } } n
  if saSends a && a.soft ≤ a.seq then saSoft s n else s

/-- CPH_SA_WRITE: SA, WRAP, SEQ_LOAD and the 128 bytes of a record. -/
def saWriteBody : OpBody where
  lenOk p := p.length == 152
  objs := saObj true
  own c _ := ownTarget c
  run c s :=
    let p := c.params
    let n := slot p 0
    let r := p.drop 24
    if slot p 1 = 0 ∧ s.grade.cur = .sealed then .finish (refuse stWrongGrade 3) s
    else checked [(0, n < 2 ^ 22), (8, slot p 1 ≤ 1), (16, slot p 2 ≤ 1)] s fun _ =>
      match (if slot p 1 = 0 then some r else unwrapRecord s r) with
      | none => .finish (badParam 8) s
      | some r =>
        let a := saOfRecord r
        checked [(24, saGood a && a.fid == c.target)] s fun _ =>
          if 2 ^ 44 - 1 ≤ (saOf s n).writeCnt then .finish (refuse stNoResource) s
          else if !saExists s n && !mayTake s c.target 6 1 then .finish (refuse stNoResource) s
          else grant (handOut (writeSa s n a (slot p 2 == 1)))

/-- CPH_SA_WRITE (R243). -/
def execCphSaWrite (pf : Nat) (buf : ParamBuf) (s : State) : Host.Outcome State Fault Refusal :=
  joryen 0x0600 saWriteBody pf buf s

/-- Clear an SA (R240, R243): its record is written with VALID 0, and WRITE_CNT is kept beyond it. -/
def clearSa (s : State) (n : Nat) : State :=
  let t := putRecord (modSa s n fun a => { writeCnt := a.writeCnt + 1, seq := a.seq, gen := a.gen + 1 }) n
  { t with cph := { t.cph with
    cached := s.cph.cached.filter (· != n), changed := s.cph.changed.filter (· != n) } }

/-- CPH_SA_CLEAR. -/
def saClearBody : OpBody where
  lenOk := slots 1
  objs := saObj false
  own c _ := ownTarget c
  run c s :=
    let n := slot c.params 0
    if 2 ^ 44 - 1 ≤ (saOf s n).writeCnt then .finish (refuse stNoResource) s else grant (handOut (clearSa s n))

/-- CPH_SA_CLEAR (R243). -/
def execCphSaClear (pf : Nat) (buf : ParamBuf) (s : State) : Host.Outcome State Fault Refusal :=
  joryen 0x0601 saClearBody pf buf s

/-- CPH_SA_QUERY. -/
def saQueryBody : OpBody where
  lenOk := slots 1
  objs := saObj false
  own c _ := ownTarget c
  run c s := grant s [] (saView (saOf s (slot c.params 0)))

/-- CPH_SA_QUERY (R242). -/
def execCphSaQuery (pf : Nat) (buf : ParamBuf) (s : State) : Host.Outcome State Fault Refusal :=
  joryen 0x0602 saQueryBody pf buf s

/-! ## The SA cache (R240, R241) -/

/-- Write back a record that changed in the cache. -/
def writeBack (s : State) (n : Nat) : State :=
  if s.cph.changed.contains n && (saOf s n).writeCnt < 2 ^ 44 - 1 then
    let s := putRecord (modSa s n fun a => { a with writeCnt := a.writeCnt + 1 }) n
    { s with cph := { s.cph with changed := s.cph.changed.filter (· != n) } }
  else s

/-- Make room in the cache of 65,536 SAs: one, of the device's choice, is written back and leaves it. -/
def saCacheRoom (s : State) : State :=
  if s.cph.cached.length < 65536 then s
  else
    let (v, s) := free s
    match s.cph.cached[v.toNat % s.cph.cached.length]? with
    | some n =>
      let s := writeBack s n
      { s with cph := { s.cph with cached := s.cph.cached.filter (· != n) } }
    | none => s

/-- SA_FETCH_DONE (R241): the record arrives; one whose tag fails, as it stands or as the HBM gave it (`tagGood`), or that
the HBM cannot give (R416), is absent. -/
def execSaFetchDone (n : Nat) (tagGood ecc : Bool) (s : State) : Host.Outcome State Fault Refusal :=
  within (n < 2 ^ 22) (live s fun s =>
    if !(saOf s n).valid || s.cph.cached.contains n then s
    else
      let bad := fun (s : State) => { s with cph := { s.cph with bad := insNat n s.cph.bad } }
      if ecc then
        let (l, s) := freeLoc s
        handOut (bad (hbmUe s 0 l))
      else if !tagGood || !recordOpens s n then handOut (bad (hwSet s (Reg.CPH_STATUS) 2 15 8))
      else
        let s := saCacheRoom s
        handOut { s with cph := { s.cph with
          cached := insNat n s.cph.cached, bad := s.cph.bad.filter (· != n) } })

/-- SA_WRITEBACK (R240). -/
def execSaWriteback (n : Nat) (s : State) : Host.Outcome State Fault Refusal :=
  within (n < 2 ^ 22) (live s fun s => writeBack s n)

/-! ## Port protection -/

/-- A write of CPH_PORT_CFG (R245): ignored with CFG_ERR where it sets MACSEC_EN for a SHAPE 1 port whose group has a
lane pair that is not joined. -/
def writePortCfg (s : State) (mac : Nat) (v : Word) : State :=
  let g := groupOf mac
  if bits v 31 31 = 1 ∧ shapeOf s g = 1 ∧ servesPort s mac ∧ !(lanePairState s g == 2 && lanePairState s (2 + g) == 2) then
    hwSet s (Reg.CPH_STATUS) 0 7 0
  else regWrite s (Reg.CPH_PORT_CFG mac) v

/-- CPH_PORT_CFG_WRITE (R245). -/
def execCphPortCfgWrite (m : Master) (mac : Nat) (v : Word) (s : State) : Host.Outcome State Fault Refusal :=
  within (mac < 8) (onWrite s m fun s => writePortCfg s mac v)

/-! ## MACsec (R245, R247, R251) -/

/-- The nonce of IEEE 802.1AE: SCI and PN, or under XPN the salt over SSCI and the 64-bit PN. -/
def macsecNonce (a : Sa) (pn : Nat) : List Byte :=
  if saXpn a then toBe 12 (beNat a.salt ^^^ (a.ssci * 2 ^ 64 + pn % 2 ^ 64)) else toBe 8 a.sci ++ toBe 4 pn

/-- Protect a frame (without FCS). The spec gives an SA no association number and does not say when the SCI is sent:
`an` and `sc` are the device's choice. -/
def macsecSeal (a : Sa) (pn an : Nat) (sc : Bool) (b : List Byte) : List Byte :=
  let data := b.drop 12
  let sl := if data.length < 48 then data.length else 0
  let hdr := b.take 12 ++ [0x88, 0xE5] ++ toBe 1 (sc.toNat * 32 + (saConf a).toNat * 12 + an % 4) ++ toBe 1 sl ++ toBe 4 pn ++
    (if sc then toBe 8 a.sci else [])
  let off := if saConf a then saOffset a else data.length
  let (ct, tag) := aeadSeal a.alg (saKey a) (macsecNonce a pn) (hdr ++ data.take off) (data.drop off)
  hdr ++ data.take off ++ ct ++ tag

/-- The lowest acceptable PN of a receive SA (R254, IEEE 802.1AE): SEQ, and under a window the one it ends at. -/
def lowestPn (a : Sa) : Nat := if a.replayWin = 0 then a.seq else max a.seq (a.highest + 1 - a.replayWin)

/-- The PN a SecTAG stands for: under XPN the upper half is recovered from the lowest acceptable PN, without a window from
the highest PN accepted. -/
def macsecPn (a : Sa) (pn : Nat) : Nat :=
  if saXpn a then
    let low := if a.replayWin = 0 then max a.seq a.highest else lowestPn a
    let hi := low / 2 ^ 32
    (if 2 ^ 31 ≤ low % 2 ^ 32 ∧ pn < 2 ^ 31 then hi + 1 else hi) * 2 ^ 32 + pn
  else pn

/-- Open a MACsec frame: its PN and its bytes; none where it is no whole MACsec frame or its tag fails. -/
def macsecOpen (a : Sa) (b : List Byte) : Option (Nat × List Byte) :=
  let tci := beAt b 14 1
  let hl := if tci / 32 % 2 = 1 then 28 else 20
  let sl := beAt b 15 1 % 64
  let n := if sl = 0 then b.length - hl - 16 else sl
  if beAt b 12 2 ≠ 0x88E5 ∨ b.length < hl + 16 + n then none
  else
    let pn := macsecPn a (beAt b 16 4)
    let data := slice b hl n
    let off := if tci / 8 % 2 = 1 then saOffset a else n
    (aeadOpen a.alg (saKey a) (macsecNonce a pn) (b.take hl ++ data.take off) (data.drop off) (slice b (hl + n) 16)).map
      fun pt => (pn, b.take 12 ++ data.take off ++ pt)

/-! ## ESP (R249, R251) -/

/-- Replace bytes of a string from an offset. -/
def overlay (b : List Byte) (off : Nat) (v : List Byte) : List Byte := b.take off ++ v ++ b.drop (off + v.length)

/-- Where a frame's EtherType stands, after its VLAN tags. -/
def etherOff (b : List Byte) : Nat := tagOffset 4 b 12

/-- An IP header with a new protocol and payload length: total length and checksum of IPv4, payload length of IPv6. -/
def fixIp (h : List Byte) (proto len : Nat) : List Byte :=
  if beAt h 0 1 / 16 = 4 then
    let h := overlay (overlay (overlay h 2 (toBe 2 (h.length + len))) 9 (toBe 1 proto)) 10 [0, 0]
    overlay h 10 (toBe 2 (inetSum h))
  else overlay (overlay h 4 (toBe 2 (h.length - 40 + len))) 6 (toBe 1 proto)

/-- The IP packet of a frame: where it starts, its header length, its protocol and where it ends; none for other
frames. -/
def ipAt (b : List Byte) : Option (Nat × Nat × Nat × Nat) :=
  let l3 := etherOff b + 2
  if beAt b (etherOff b) 2 = 0x0800 ∧ l3 + 20 ≤ b.length then
    some (l3, beAt b l3 1 % 16 * 4, beAt b (l3 + 9) 1, min b.length (l3 + beAt b (l3 + 2) 2))
  else if beAt b (etherOff b) 2 = 0x86DD ∧ l3 + 40 ≤ b.length then
    some (l3, 40, beAt b (l3 + 6) 1, min b.length (l3 + 40 + beAt b (l3 + 4) 2))
  else none

/-- The associated data of ESP: SPI and sequence number, with the high word under ESN. -/
def espAad (a : Sa) (spi seq : Nat) : List Byte :=
  toBe 4 spi ++ (if saFlag a 26 then toBe 4 (seq / 2 ^ 32) else []) ++ toBe 4 seq

/-- Protect a frame with ESP: transport mode, or tunnel mode behind the template of the SA. The IV is the device's
choice. None for a frame that is not IP. -/
def espSeal (a : Sa) (tmpl iv : List Byte) (seq : Nat) (b : List Byte) : Option (List Byte) :=
  (ipAt b).map fun (l3, hl, proto, fin) =>
    let tunnel := saFlag a 24
    let body := if tunnel then slice b l3 (fin - l3) else slice b (l3 + hl) (fin - l3 - hl)
    let nh := if tunnel then (if beAt b l3 1 / 16 = 4 then 4 else 41) else proto
    let pad := (4 - (body.length + 2) % 4) % 4
    let pt := body ++ (List.range pad).map (fun i => BitVec.ofNat 8 (i + 1)) ++ toBe 1 pad ++ toBe 1 nh
    let spi := a.sci / 2 ^ 32
    let (ct, tag) := aeadSeal a.alg (saKey a) (a.salt.take 4 ++ iv) (espAad a spi seq) pt
    let esp := toBe 4 spi ++ toBe 4 seq ++ iv ++ ct ++ tag
    let esp := if saFlag a 25 then toBe 2 4500 ++ toBe 2 4500 ++ toBe 2 (8 + esp.length) ++ [0, 0] ++ esp else esp
    let outer := if tunnel then tmpl else slice b l3 hl
    let eth := if tunnel then
        b.take (l3 - 2) ++ (if beAt tmpl 0 1 / 16 = 4 then [0x08, 0x00] else [0x86, 0xDD])
      else b.take l3
    eth ++ fixIp outer (if saFlag a 25 then 17 else 50) esp.length ++ esp

/-- The full sequence number of an ESP packet: under ESN the high word is recovered from the window (RFC 4303), which ends
at the highest number accepted, or below SEQ while none has been. -/
def espSeq (a : Sa) (lo : Nat) : Nat :=
  if saFlag a 26 then
    let w := max a.replayWin 1
    let tl := max a.highest (a.seq - 1) % 2 ^ 32
    let th := max a.highest (a.seq - 1) / 2 ^ 32
    if w - 1 ≤ tl then (if tl + 1 - w ≤ lo then th else th + 1) * 2 ^ 32 + lo
    else (if 2 ^ 32 + tl + 1 - w ≤ lo then th - 1 else th) * 2 ^ 32 + lo
  else lo

/-- Open an ESP packet: its sequence number, the frame after decryption, and the offset of the inner header. -/
def espOpen (a : Sa) (b : List Byte) : Option (Nat × List Byte × Nat) :=
  match ipAt b with
  | none => none
  | some (l3, hl, proto, fin) =>
    let at' := l3 + hl + (if proto = 17 then 8 else 0)
    let okProto := proto == 50 || (proto == 17 && (beAt b (l3 + hl + 2) 2 == 4500 || beAt b (l3 + hl) 2 == 4500))
    if !okProto || fin < at' + 32 then none
    else
      let seq := espSeq a (beAt b (at' + 4) 4)
      (aeadOpen a.alg (saKey a) (a.salt.take 4 ++ slice b (at' + 8) 8) (espAad a (beAt b at' 4) seq)
        (slice b (at' + 16) (fin - at' - 32)) (slice b (fin - 16) 16)).map fun pt =>
        let pad := beAt pt (pt.length - 2) 1
        let nh := beAt pt (pt.length - 1) 1
        let inner := pt.take (pt.length - 2 - pad)
        if saFlag a 24 then
          (seq, b.take (l3 - 2) ++ (if nh = 4 then [0x08, 0x00] else [0x86, 0xDD]) ++ inner, l3)
        else (seq, b.take l3 ++ fixIp (slice b l3 hl) nh inner.length ++ inner, l3 + hl)

/-- The sequence number passes the replay check of ESP (R254): above the highest, or in the window and not seen. -/
def espFresh (a : Sa) (seq : Nat) : Bool :=
  a.seq ≤ seq && (a.replayWin == 0 || a.highest < seq ||
    (a.highest - seq < a.replayWin && a.bitmap / 2 ^ (a.highest - seq) % 2 == 0))

/-- Mark a sequence number received. -/
def espMark (a : Sa) (seq : Nat) : Sa :=
  if a.highest < seq then
    { a with highest := seq, bitmap := (a.bitmap * 2 ^ min 512 (seq - a.highest) + 1) % 2 ^ 512 }
  else if a.highest - seq < 512 then { a with bitmap := a.bitmap ||| 2 ^ (a.highest - seq) }
  else a

/-! ## Inline frames -/

/-- Count a frame of `n` bytes on its SA. -/
def saCount (s : State) (n len : Nat) : State :=
  modSa s n fun a => { a with pktsOk := (a.pktsOk + 1) % 2 ^ 64, octetsOk := (a.octetsOk + len) % 2 ^ 64 }

/-- Send on a frame that a lane finished under a program: to the next STEER, another lane among them, or to the default
function (R111). -/
def laneSend (s : State) (lf : LaneFrame) (f : InFrame) (next : List Steer) (cls : Nat) (b : List Byte)
    (encrypted : Bool) : Delivery × State :=
  match next with
  | .port m :: _ =>
    if macCount s.variant ≤ m then (.refused 0x0D, s)
    else if maxFrame s m < b.length + 4 then (.refused 0x06, s)
    else (.done, sendTo s m { bytes := withFcs b, cls := cls, src := { kind := 0, num := f.mac }, canWait := false
                              encrypted := encrypted, mirror := lf.mirror, orig := origLen f })
  | .cipher sa :: rest =>
    let (onTx, mac) := laneSide s f.mac sa rest
    if saUsable s sa then
      (.done, toLane s { seq := 0, onTx := onTx, mac := mac, sa := sa, bytes := b, frame := some f, mirror := lf.mirror
                         encrypted := encrypted, work := .program rest cls (f.verdict.bind Verdict.queue) })
    else (.refused 0x0D, s)
  | d =>
    deliverTo s (d.head?.getD (.host (fld s (Reg.HBX_PORT_FID f.mac) 11 0))) f (f.verdict.getD { bytes := b }) b cls
      (lanePipe lf) true lf.mirror

/-- Return a decrypted frame to its receive pipe for a further pass from node 0 at the inner header (R249). -/
def reparse (s : State) (f : InFrame) (b : List Byte) (off : Nat) : State :=
  let role := rxRole s f.mac
  let k := inletKey s role
  let g := { f with
    bytes := b ++ fcs b, pool := .none, cells := 0, passes := max 1 f.passes, node := 0, off := off, depth := 0
    recs := [], verdict := none, pipe := carrierOf s role, opened := true, orig := origLen f }
  if s.pkt.unfilled.contains role then broke s 0x0B b { kind := 0, num := f.mac } 0xFFFF 0xFF (origLen f)
  else setInlet s k (inletOf s k ++ [g])

/-- A frame leaves its lane for where its program sends it; none while its destination cannot take it. -/
def laneDeliver (s : State) (lf : LaneFrame) (f : InFrame) (next : List Steer) (cls : Nat) (b : List Byte)
    (encrypted : Bool) : Option State :=
  match laneSend (leaveLane s lf) lf f next cls b encrypted with
  | (.done, t) => some t
  | (.refused r, t) => some (broke t (if lf.mirror then 0x0C else r) b (laneSrc lf) 0xFFFF (lanePipe lf) (laneOrig lf))
  | (.waits, _) => none

/-- A tag fails to verify: the SA's AUTH_FAIL goes up, and the lane counts the event. -/
def authFailed (s : State) (lf : LaneFrame) : State :=
  let s := match lf.lane with
    | some l => pmuEvent s (0x600 + l) 0x5303
    | none => s
  modSa s lf.sa fun a => { a with authFail := (a.authFail + 1) % 2 ^ 64 }

/-- The replay state a received frame is checked against: that of the record it runs under, which is the SA's own until a
command restarts it (R243). -/
def replayState (s : State) (lf : LaneFrame) : Sa :=
  let a := lf.rec'
  let cur := saOf s lf.sa
  if cur.gen = a.gen then { a with highest := cur.highest, bitmap := cur.bitmap } else a

/-- Mark a sequence number received in that state: frames of a record that was restarted keep it among themselves. -/
def markSeen (s : State) (lf : LaneFrame) (upd : Sa → Sa) : State :=
  if (saOf s lf.sa).gen = lf.rec'.gen then modSa s lf.sa upd
  else { s with cph := { s.cph with frames := s.cph.frames.map fun g =>
    if g.sa = lf.sa ∧ g.rec'.gen = lf.rec'.gen then { g with rec' := upd g.rec' } else g } }

/-- Finish an inline frame in its lane: protect it or check it (R245 to R254). -/
def inlineFrame (s : State) (lf : LaneFrame) : Option State :=
  let a := lf.rec'
  match lf.work, lf.tx, lf.frame with
  | .macsecTx mac, some t, _ =>
    let (v, s) := free s
    let b := macsecSeal a lf.pn (v.toNat % 4) (v.toNat / 4 % 2 == 1) lf.bytes
    some (sendTo (saCount (leaveLane s lf) lf.sa lf.bytes.length) mac
      { t with bytes := withFcs b, secured := true, encrypted := t.encrypted || saConf a })
  | .program next cls _, _, some f =>
    match a.typ with
    | 1 =>
      let (v, s) := free s
      let b := macsecSeal a lf.pn (v.toNat % 4) (v.toNat / 4 % 2 == 1) lf.bytes
      laneDeliver (saCount s lf.sa lf.bytes.length) lf f next cls b (lf.encrypted || saConf a)
    | 3 =>
      let (v, s) := free s
      match espSeal a (tgetD s.pkt.templates (bits a.flags 9 0) []) (toBe 8 v.toNat) lf.pn lf.bytes with
      | some b => laneDeliver (saCount s lf.sa lf.bytes.length) lf f next cls b true
      | none => some (brokeLane s lf 0x0D)
    | 2 =>
      match macsecOpen (replayState s lf) lf.bytes with
      | none => some (brokeLane (authFailed s lf) lf 0x0E)
      | some (pn, b) =>
        if pn < lowestPn (replayState s lf) then
          some (brokeLane (modSa s lf.sa fun a => { a with replay := (a.replay + 1) % 2 ^ 64 }) lf 0x0E)
        else
          let s := markSeen (saCount s lf.sa b.length) lf fun a => { a with highest := max a.highest pn }
          if saFlag a 27 then some (reparse (leaveLane s lf) f b 0) else laneDeliver s lf f next cls b false
    | 4 =>
      let w := replayState s lf
      match espOpen w lf.bytes with
      | none => some (brokeLane (authFailed s lf) lf 0x0E)
      | some (seq, b, off) =>
        if !espFresh w seq then
          some (brokeLane (modSa s lf.sa fun a => { a with replay := (a.replay + 1) % 2 ^ 64 }) lf 0x0E)
        else
          let s := markSeen (saCount s lf.sa b.length) lf fun a => espMark a seq
          if saFlag a 27 then some (reparse (leaveLane s lf) f b off) else laneDeliver s lf f next cls b false
    | _ => some (brokeLane s lf 0x0D)
  | _, _, _ => some (leaveLane s lf)

/-- One frame of an ACTIVE lane retires, if it is the next of its inlet in order (R247, R259). -/
def inlineStep (s : State) (lane : Nat) : State :=
  if laneState s lane != 3 then s
  else
    match s.cph.frames.find? fun f => f.lane == some lane with
    | none => s
    | some f =>
      let first := s.cph.frames.find? fun g => g.lane.isSome && framePair s g == framePair s f &&
        (lanePairJoined s (framePair s f) || laneRole s g.onTx g.mac == laneRole s f.onTx f.mac)
      if (first.map LaneFrame.seq) = some f.seq then
        match inlineFrame (count s (Reg.LANE_BYTES lane) f.bytes.length) f with
        | some t => handOut t
        | none => s
      else s

/-- INLINE_CIPHER_FRAME (R247). -/
def execInlineCipherFrame (lane : Nat) (s : State) : Host.Outcome State Fault Refusal :=
  within (lane < 9) (live s fun s => inlineStep s lane)

/-! ## LLDPDUs -/

/-- An LLDPDU goes out: `b` without FCS. -/
def lldpOut (s : State) (mac : Nat) (b : List Byte) : State :=
  lldpSent (countTx (emit s (.lldp mac (withFcs b))) mac (b.length + 4)) mac

/-- Transmit an LLDPDU (R60, R61). A port with MACSEC_EN protects it as it does every frame (R245); in SEALED one that is
not encrypted goes to broke (R250). -/
def lldpTransmit (s : State) (mac : Nat) (head : List Byte) : State :=
  let b := lldpFrame s mac head
  let src : FrameSrc := { kind := 1, num := mac }
  let hidden := s.grade.cur == .sealed
  if flag s (Reg.CPH_PORT_CFG mac) 31 then
    let n := fld s (Reg.CPH_PORT_CFG mac) 21 0
    if !(saUsable s n && (saOf s n).typ == 1) then broke s 0x0D b src
    else if hidden && !saConf (saOf s n) then broke s 0x08 b src
    else
      let a := saOf s n
      let (pn, s) := takeSeq s n
      let (v, s) := free s
      lldpOut (saCount s n b.length) mac (macsecSeal a pn (v.toNat % 4) (v.toNat / 4 % 2 == 1) b)
  else if hidden then broke s 0x08 b src
  else lldpOut s mac b

/-- LLDPDU_TRANSMIT (R61). -/
def execLldpduTransmit (l : LldpSend) (s : State) : Host.Outcome State Fault Refusal :=
  within (l.mac < macCount s.variant) (live s fun s =>
    if portEn s l.mac && linkUp s l.mac then lldpTransmit s l.mac l.head else s)

/-! ## Joining (R259) -/

/-- Set JSTATE of a lane pair. -/
def setLanePair (s : State) (k j : Nat) : State := setFld s (Reg.CPH_PAIR_STATUS k) 17 16 j

/-- The body of CPH_LANE_JOIN and CPH_LANE_SPLIT: a pair named by its even lane. -/
def lanePairBody (check : State → Nat → Option Reply) (change : Nat) : OpBody where
  lenOk := slots 1
  run c s :=
    let p := slot c.params 0
    if 8 ≤ p ∨ p % 2 = 1 then .finish (badParam 0) s
    else
      let k := p / 2
      match check s k with
      | some r => .finish r s
      | none =>
        .wait true { setLanePair s k (if change = 1 then 1 else 3) with
          cph := { s.cph with joins := tset s.cph.joins k change } }

/-- A role of the lane pair has no holder. -/
def lanePairBroken (s : State) (k : Nat) : Bool := (laneHolder s (2 * k)).isNone || (laneHolder s (2 * k + 1)).isNone

/-- CPH_LANE_JOIN. -/
def laneJoinBody : OpBody := lanePairBody (fun s k =>
  if lanePairState s k != 0 then some (badParam 0)
  else if lanePairBroken s k then some (refuse stNoResource) else none) 1

/-- CPH_LANE_SPLIT: refused while MACsec protects a SHAPE 1 port of the group. -/
def laneSplitBody : OpBody := lanePairBody (fun s k =>
  if shapeOf s (k % 2) = 1 ∧ flag s (Reg.CPH_PORT_CFG (4 * (k % 2))) 31 then
    some (refuse stWrongGrade (gradeCode s.grade.cur))
  else if lanePairState s k != 2 then some (badParam 0)
  else if lanePairBroken s k then some (refuse stNoResource) else none) 2

/-- CPH_LANE_JOIN (R259). -/
def execCphLaneJoin (pf : Nat) (buf : ParamBuf) (s : State) : Host.Outcome State Fault Refusal :=
  joryen 0x0608 laneJoinBody pf buf s

/-- CPH_LANE_SPLIT (R259). -/
def execCphLaneSplit (pf : Nat) (buf : ParamBuf) (s : State) : Host.Outcome State Fault Refusal :=
  joryen 0x0609 laneSplitBody pf buf s

/-! ## Failure, test and re-entry (R260 to R262) -/

/-- Set a lane's STATE and ROLE_OF. -/
def setLane (s : State) (n st role : Nat) : State :=
  let r := laneReg n
  setFld (setFld s r 2 0 st) r 11 8 role

/-- Look-aside jobs of a lane. -/
def laneJobs (s : State) (n : Nat) : List Nat :=
  (s.cph.jobs.filter fun p => p.2.lane == some n && !isTransform p.2.block).map Prod.fst

/-- Give the jobs of a lane to another, or back to R238 where `to'` is none. -/
def moveJobs (s : State) (n : Nat) (to' : Option Nat) : State :=
  let js := laneJobs s n
  { s with cph := { s.cph with jobs := tmap s.cph.jobs fun k j => if js.contains k then { j with lane := to' } else j } }

/-- Replay every unretired frame and job of a lane into another, PN and tag unchanged (R260). -/
def replayLane (s : State) (old new : Nat) : Nat × State :=
  let n := laneLoad s old + (laneJobs s old).length
  let s := moveJobs s old (some new)
  let s := { s with cph := { s.cph with
    frames := s.cph.frames.map fun f => if f.lane = some old then { f with lane := some new } else f } }
  (n, count s (Reg.LANE_REPLAYED new) n)

/-- A lane fails (R260, R261). -/
def laneFail (s : State) (lane : Nat) (cause : FailCause) : State :=
  let st := laneState s lane
  if st != 2 && st != 3 then s
  else
    let s := if cause = .kat then hwSet s (Reg.CPH_LANE_FAULT lane) 3 31 24
      else if cause = .bist then hwSet s (Reg.CPH_LANE_FAULT lane) 0 7 0 else s
    let role := laneRoleOf s lane
    if 8 ≤ role then logErr (moveJobs (setLane s lane 4 0xF) lane none) 0x0601 2 (0x600 + lane) [lane, 0]
    else if laneState s 8 == 2 then
      let (n, s) := replayLane (setLane (setLane s lane 4 0xF) 8 3 role) lane 8
      logErr (hwSet s (Reg.CPH_LANE_FAULT lane) 1 15 8) 0x0601 2 (0x600 + lane) [lane, n]
    else
      let s := hwSet (setLane s lane 4 0xF) (Reg.CPH_LANE_FAULT lane) 2 23 16
      let s := logErr s 0x0602 2 (0x600 + lane) [lane]
      match laneCarrier s role with
      | some other => (replayLane (moveJobs s lane none) lane other).2
      | none =>
        let lost := if lanePairJoined s (role / 2) then [role / 2 * 2, role / 2 * 2 + 1] else [role]
        let s := moveJobs s lane none
        let s := { s with cph := { s.cph with unfilled := lost.foldl (fun l r => insNat r l) s.cph.unfilled } }
        (s.cph.frames.filter fun f => f.lane == some lane || lost.contains (laneRole s f.onTx f.mac)).foldl
          (fun s f => brokeLane s f 0x0B) s

/-- KAT_RUN (R260): a known-answer test that fails fails the lane. -/
def execKatRun (lane : Nat) (pass : Bool) (s : State) : Host.Outcome State Fault Refusal :=
  within (lane < 9) (live s fun s => if pass then s else laneFail s lane .kat)

/-- LANE_FAILURE (R260). -/
def execLaneFailure (lane : Nat) (cause : FailCause) (s : State) : Host.Outcome State Fault Refusal :=
  within (lane < 9) (live s fun s => laneFail s lane cause)

/-- CPH_LANE_BIST: of a failed lane only (R262). -/
def laneBistBody : OpBody where
  lenOk := slots 1
  run c s :=
    let p := slot c.params 0
    if 9 ≤ p then .finish (badParam 0) s
    else if laneState s p != 4 then .finish (badParam 0) s
    else .wait false (setLane s p 1 0xF)

/-- CPH_LANE_BIST (R262). -/
def execCphLaneBist (pf : Nat) (buf : ParamBuf) (s : State) : Host.Outcome State Fault Refusal :=
  joryen 0x060A laneBistBody pf buf s

/-- A lane that passes becomes WARM_SPARE, or takes an unfilled role at once (R262). -/
def laneBistPassed (s : State) (lane : Nat) : State :=
  match s.cph.unfilled with
  | r :: rest => handOut { setLane s lane 3 r with cph := { s.cph with unfilled := rest } }
  | [] => setLane s lane 2 0xF

/-- LANE_BIST_DONE (R262). -/
def execLaneBistDone (lane : Nat) (pass : Bool) (s : State) : Host.Outcome State Fault Refusal :=
  within (lane < 9) (live s fun s =>
    if laneState s lane != 1 then s
    else
      let s := if pass then laneBistPassed s lane else hwSet (setLane s lane 4 0xF) (Reg.CPH_LANE_FAULT lane) 0 7 0
      settleAny s 0x060A (ok [BitVec.ofNat 32 pass.toNat]))

/-- CPH_LANE_RESTORE: a role and a WARM_SPARE lane (R262). -/
def laneRestoreBody : OpBody where
  lenOk := slots 2
  run c s :=
    let role := slot c.params 0
    let p := slot c.params 1
    if 8 ≤ role then .finish (badParam 0) s
    else if 9 ≤ p ∨ laneState s p != 2 then .finish (badParam 8) s
    else if (laneCarrier s role).isNone then .finish (badParam 0) s
    else .wait true { s with cph := { s.cph with moves := tset s.cph.moves role p } }

/-- CPH_LANE_RESTORE (R262). -/
def execCphLaneRestore (pf : Nat) (buf : ParamBuf) (s : State) : Host.Outcome State Fault Refusal :=
  joryen 0x060B laneRestoreBody pf buf s

/-! ## Epochs of lanes -/

/-- Move a role at the epoch (R262): its old holder becomes WARM_SPARE; a survivor that carried it keeps its own. A target
that is no longer WARM_SPARE takes nothing: the command is done where it holds the role by now, and refused otherwise
(assumption 104, DESIGN CHOICE). -/
def moveLaneRole (s : State) (role : Nat) : State :=
  match tget s.cph.moves role with
  | none => s
  | some p =>
    let s := { s with cph := { s.cph with moves := terase s.cph.moves role } }
    if laneState s p != 2 then settleAny s 0x060B (if laneHolder s role = some p then ok else refuse stNoResource)
    else
      let s := match laneCarrier s role with
        | some old => if laneRoleOf s old = role then setLane (setLane s p 3 role) old 2 0xF else setLane s p 3 role
        | none => setLane s p 3 role
      settleAny { s with cph := { s.cph with unfilled := s.cph.unfilled.filter (· != role) } } 0x060B ok

/-- A lane role that no lane holds once its pair has parted (R259, R261): the spare takes it where it is WARM_SPARE,
otherwise it is unfilled and its frames go to broke. -/
def orphanLane (s : State) (role : Nat) : State :=
  if (laneHolder s role).isSome then s
  else if laneState s 8 = 2 then setLane s 8 3 role
  else
    ((s.cph.frames.filter fun f => laneRole s f.onTx f.mac == role).foldl (fun s f => brokeLane s f 0x0B)
      { s with cph := { s.cph with unfilled := insNat role s.cph.unfilled } })

/-- Take the pending join or split of a lane pair. -/
def changeLanePair (s : State) (k : Nat) : State :=
  match tget s.cph.joins k with
  | none => s
  | some 1 => settleAny (setLanePair { s with cph := { s.cph with joins := terase s.cph.joins k } } k 2) 0x0608 ok
  | some _ =>
    let s := setLanePair { s with cph := { s.cph with joins := terase s.cph.joins k } } k 0
    settleAny (orphanLane (orphanLane s (2 * k)) (2 * k + 1)) 0x0609 ok

/-- Count a reorder epoch of a lane pair. -/
def countLaneEpoch (s : State) (k : Nat) : State :=
  setFld s (Reg.CPH_PAIR_STATUS k) 15 0 (fld s (Reg.CPH_PAIR_STATUS k) 15 0 + 1)

/-- The restore of a role of lanes that are not joined: its epoch waits for the frames of that role alone (R126, R262). -/
def soloLaneEpoch (s : State) (role : Nat) : State :=
  if (tget s.cph.moves role).isNone || s.cph.frames.any fun f => f.lane.isSome && laneRole s f.onTx f.mac == role then s
  else moveLaneRole (countLaneEpoch s (role / 2)) role

/-- A reorder epoch of a lane pair (R259, R262): every frame handed out before has retired; the inlet then goes on. -/
def laneEpoch (s : State) (k : Nat) : State :=
  if lanePairJoined s k || (tget s.cph.joins k).isSome then
    if !lanePairBusy s k || s.cph.frames.any fun f => f.lane.isSome && framePair s f == k then s
    else handOut (changeLanePair (moveLaneRole (moveLaneRole (countLaneEpoch s k) (2 * k)) (2 * k + 1)) k)
  else handOut (soloLaneEpoch (soloLaneEpoch s (2 * k)) (2 * k + 1))

/-- REORDER_EPOCH (R121, R259): of pipe pair or lane pair `pair`. -/
def execReorderEpoch (lanes : Bool) (pair : Nat) (s : State) : Host.Outcome State Fault Refusal :=
  within (pair < 4) (live s fun s => if lanes then laneEpoch s pair else pipeEpoch s pair)

/-! ## User pages (R267) -/

/-- The page a function sees at local index `k`. -/
def cphPage (s : State) (fid k : Nat) : Option Nat := (fnOf s fid).cphPages[k]?

/-- The function's registers answer (R276): memory space enabled, in D0, present, its link there. -/
def pageReach (s : State) (fid : Nat) : Bool :=
  let f := fnOf s fid
  fnPresent s fid && f.memEn && !f.d3hot && !f.flr && !s.host.perstLow && !(linkRec s (linkOf s fid)).lost

/-- An access to a function's page (R276): Unsupported Request where the page does not answer. -/
def onPage (s : State) (fid : Nat) (f : State → State) : State :=
  if pageReach s fid then f s else unsupportedReq s fid

/-- A write of CPH_PAGE_SA_SEL: a page that is not assigned ignores it (R324). -/
def writeSaSel (s : State) (fid k : Nat) (v : Word) : State :=
  match cphPage s fid k with
  | some p => { s with cph := { s.cph with pageSel := tset s.cph.pageSel p (v &&& 0x3FFFFF) } }
  | none => s

/-- CPH_PAGE_SA_SEL_WRITE (R267): selects the SA the page shows. -/
def execCphPageSaSelWrite (fid k : Nat) (v : Word) (s : State) : Host.Outcome State Fault Refusal :=
  within (fid < 4096) (live s fun s => onPage s fid fun s => writeSaSel s fid k v)

/-- A 48-bit counter as the two words of a page. -/
def ctrWords (n : Nat) : List Word := [BitVec.ofNat 32 n, BitVec.ofNat 32 (n / 2 ^ 32 % 2 ^ 16)]

/-- What a function reads at an offset of its cipher page `k`: the view of the selected SA is 0 where that SA is absent
or another function's. -/
def cphPageRead (s : State) (fid k off : Nat) : Word :=
  match cphPage s fid k with
  | none => 0
  | some p =>
    let sel := tgetD s.cph.pageSel p 0
    let a := saOf s sel.toNat
    let mine := saExists s sel.toNat && a.fid == fid
    let (j, jb, af, kr) := tgetD s.cph.pageCnt fid (0, 0, 0, 0)
    let view : List Word :=
      [BitVec.ofNat 32 (2 ^ 31 + a.typ % 16 * 2 ^ 27 + a.alg % 8 * 2 ^ 24 +
        (saSends a && decide (a.soft ≤ a.seq)).toNat * 2 ^ 23 + (saSends a && decide (a.hard ≤ a.seq)).toNat * 2 ^ 22),
       BitVec.ofNat 32 a.seq, BitVec.ofNat 32 (a.seq / 2 ^ 32)] ++
      ctrWords a.pktsOk ++ ctrWords a.octetsOk ++ ctrWords a.authFail ++ ctrWords a.replay
    if off = 0 then BitVec.ofNat 32 k
    else if off = 0x10 then sel
    else if 0x14 ≤ off ∧ off < 0x40 then (if mine then (view[(off - 0x14) / 4]?).getD 0 else 0)
    else if 0x100 ≤ off ∧ off < 0x120 then
      ((ctrWords j ++ ctrWords jb ++ ctrWords af ++ ctrWords kr)[(off - 0x100) / 4]?).getD 0
    else 0

/-- The function that CPH_PAGE_`p` is assigned to, and the page's local index there. -/
def pageOwner (s : State) (p : Nat) : Option (Nat × Nat) :=
  s.host.fns.findSome? fun e => (e.2.cphPages.idxOf? p).map fun k => (e.1, k)

/-- The manager's view of user page `p` (units 0x20 to 0x2F, R235): the page as its function sees it, 0 while no function
has it (assumption 85, DEDUCED). -/
def managerPage (s : State) (p off : Nat) : Word :=
  match pageOwner s p with
  | some (fid, k) => cphPageRead s fid k off
  | none => 0

/-- The manager writes CPH_PAGE_SA_SEL of a user page. -/
def managerSel (s : State) (p : Nat) (v : Word) : State :=
  match pageOwner s p with
  | some (fid, k) => writeSaSel s fid k v
  | none => s

end Sys2Proof.Machine
end

