-- ==== Sys2Proof/Machine/Inflate.lean ====
section
/-! DEFINITION. Deflate streams (R266): decompression by RFC 1951 with the wrappers of RFC 1950 and RFC 1952, and
compression as any stream that decompresses to its input (assumption 107, DESIGN CHOICE). A stream is read as a number, the
first byte lowest, from a bit position on. -/

namespace Sys2Proof.Machine

/-! ## Codes -/

/-- A Huffman code: how many symbols have each length from 1 on, and the symbols in the order of their codes. -/
structure Huff where
  counts : List Nat
  syms : List Nat
  deriving DecidableEq, Repr

/-- The code of a list of lengths, by symbol. -/
def huffOf (lens : List Nat) : Huff :=
  let ofLen := fun l => (List.range lens.length).filter fun i => lens.getD i 0 == l
  { counts := (List.range 15).map fun i => (ofLen (i + 1)).length
    syms := (List.range 15).flatMap fun i => ofLen (i + 1) }

/-- What a code leaves of the space of 2^15: none where it is over-subscribed. -/
def huffLeft (h : Huff) : Option Nat :=
  let used := ((List.range 15).map fun i => h.counts.getD i 0 * 2 ^ (14 - i)).sum
  if used ≤ 2 ^ 15 then some (2 ^ 15 - used) else none

/-- The code may be used: complete, or at most one symbol, of length 1. -/
def huffOk (h : Huff) : Bool :=
  match huffLeft h with
  | some 0 => true
  | some _ => h.syms.length ≤ h.counts.headD 0 && h.syms.length ≤ 1
  | none => false

/-- Read a symbol: the code so far, the first code of the present length, and the place of its first symbol. -/
def huffRead (v : Nat) (syms : List Nat) : List Nat → Nat → Nat → Nat → Nat → Option (Nat × Nat)
  | [], _, _, _, _ => none
  | n :: ns, p, code, first, index =>
    let code := code + v / 2 ^ p % 2
    if code < first + n then (syms[index + (code - first)]?).map fun s => (s, p + 1)
    else huffRead v syms ns (p + 1) (2 * code) (2 * (first + n)) (index + n)

/-- The next symbol at a position. -/
def huffSym (v : Nat) (h : Huff) (p : Nat) : Option (Nat × Nat) := huffRead v h.syms h.counts p 0 0 0

/-- `n` bits at a position. -/
def bitsLe (v p n : Nat) : Nat := v / 2 ^ p % 2 ^ n

/-! ## Blocks -/

def lenBase : List Nat := [3, 4, 5, 6, 7, 8, 9, 10, 11, 13, 15, 17, 19, 23, 27, 31, 35, 43, 51, 59, 67, 83, 99, 115, 131, 163,
  195, 227, 258]
def lenExtra : List Nat := [0, 0, 0, 0, 0, 0, 0, 0, 1, 1, 1, 1, 2, 2, 2, 2, 3, 3, 3, 3, 4, 4, 4, 4, 5, 5, 5, 5, 0]
def distBase : List Nat := [1, 2, 3, 4, 5, 7, 9, 13, 17, 25, 33, 49, 65, 97, 129, 193, 257, 385, 513, 769, 1025, 1537, 2049,
  3073, 4097, 6145, 8193, 12289, 16385, 24577]
def distExtra : List Nat := [0, 0, 0, 0, 1, 1, 2, 2, 3, 3, 4, 4, 5, 5, 6, 6, 7, 7, 8, 8, 9, 9, 10, 10, 11, 11, 12, 12, 13, 13]

/-- Copy `n` bytes from `d` back; the output stands latest first. -/
def copyBack (d : Nat) : Nat → List Byte → List Byte
  | 0, out => out
  | n + 1, out => copyBack d n (out.getD (d - 1) 0 :: out)

/-- The symbols of a block up to its end; `stop` is the stream's end. -/
def inflateCodes (v stop : Nat) (lit dist : Huff) : Nat → Nat → List Byte → Option (Nat × List Byte)
  | 0, _, _ => none
  | fuel + 1, p, out =>
    match huffSym v lit p with
    | none => none
    | some (s, p) =>
      if stop < p then none
      else if s < 256 then inflateCodes v stop lit dist fuel p (BitVec.ofNat 8 s :: out)
      else if s = 256 then some (p, out)
      else
        match lenBase[s - 257]?, lenExtra[s - 257]? with
        | some lb, some le =>
          let len := lb + bitsLe v p le
          match huffSym v dist (p + le) with
          | none => none
          | some (t, q) =>
            match distBase[t]?, distExtra[t]? with
            | some db, some de =>
              let d := db + bitsLe v q de
              if stop < q + de ∨ out.length < d then none
              else inflateCodes v stop lit dist fuel (q + de) (copyBack d len out)
            | _, _ => none
        | _, _ => none

/-- The fixed codes. -/
def fixedLit : Huff :=
  huffOf (List.replicate 144 8 ++ List.replicate 112 9 ++ List.replicate 24 7 ++ List.replicate 8 8)
def fixedDist : Huff := huffOf (List.replicate 30 5)

/-- The order of the code length code. -/
def lenOrder : List Nat := [16, 17, 18, 0, 8, 7, 9, 6, 10, 5, 11, 4, 12, 3, 13, 2, 14, 1, 15]

/-- Read `n` code lengths; those so far stand latest first. -/
def readLens (v : Nat) (h : Huff) (n : Nat) : Nat → Nat → List Nat → Option (Nat × List Nat)
  | 0, _, _ => none
  | fuel + 1, p, ls =>
    if ls.length = n then some (p, ls.reverse)
    else if n < ls.length then none
    else
      match huffSym v h p with
      | none => none
      | some (s, p) =>
        if s < 16 then readLens v h n fuel p (s :: ls)
        else if s = 16 then
          match ls with
          | [] => none
          | l :: _ => readLens v h n fuel (p + 2) (List.replicate (3 + bitsLe v p 2) l ++ ls)
        else if s = 17 then readLens v h n fuel (p + 3) (List.replicate (3 + bitsLe v p 3) 0 ++ ls)
        else readLens v h n fuel (p + 7) (List.replicate (11 + bitsLe v p 7) 0 ++ ls)

/-- The codes of a dynamic block, and where its symbols begin. -/
def dynCodes (v p : Nat) : Option (Nat × Huff × Huff) :=
  let nlit := bitsLe v p 5 + 257
  let ndist := bitsLe v (p + 5) 5 + 1
  let ncl := bitsLe v (p + 10) 4 + 4
  let cl := (List.range 19).map fun s =>
    match lenOrder.idxOf? s with
    | some i => if i < ncl then bitsLe v (p + 14 + 3 * i) 3 else 0
    | none => 0
  let h := huffOf cl
  if 286 < nlit ∨ 30 < ndist ∨ huffLeft h ≠ some 0 then none
  else
    match readLens v h (nlit + ndist) 400 (p + 14 + 3 * ncl) [] with
    | none => none
    | some (p, ls) =>
      let lit := huffOf (ls.take nlit)
      let dist := huffOf (ls.drop nlit)
      if ls.getD 256 0 ≠ 0 ∧ huffOk lit ∧ huffOk dist then some (p, lit, dist) else none

/-- The blocks of a stream: the position behind the last, and the output latest first. -/
def inflateBlocks (v stop : Nat) : Nat → Nat → List Byte → Option (Nat × List Byte)
  | 0, _, _ => none
  | fuel + 1, p, out =>
    let final := bitsLe v p 1 = 1
    let r := match bitsLe v (p + 1) 2 with
      | 0 =>
        let q := (p + 10) / 8 * 8
        let n := bitsLe v q 16
        if stop < q + 32 + 8 * n ∨ n + bitsLe v (q + 16) 16 ≠ 65535 then none
        else some (q + 32 + 8 * n, (toLe n (v / 2 ^ (q + 32))).reverse ++ out)
      | 1 => inflateCodes v stop fixedLit fixedDist (stop + 1) (p + 3) out
      | 2 =>
        match dynCodes v (p + 3) with
        | some (q, lit, dist) => inflateCodes v stop lit dist (stop + 1) q out
        | none => none
      | _ => none
    match r with
    | none => none
    | some (q, out) =>
      if stop < q ∨ stop < p + 3 then none
      else if final then some (q, out) else inflateBlocks v stop fuel q out

/-- A raw stream behind a history: its output, and what follows it from the next byte on. -/
def inflateRaw (hist b : List Byte) : Option (List Byte × List Byte) :=
  (inflateBlocks (leNat b) (8 * b.length) (8 * b.length + 1) 0 (hist.reverse.take 32768)).map fun (p, out) =>
    ((out.take (out.length - min 32768 hist.length)).reverse, b.drop ((p + 7) / 8))

/-! ## Wrappers -/

/-- Adler-32. -/
def adler32 (b : List Byte) : Nat :=
  let (x, y) := b.foldl (fun (p : Nat × Nat) c => let x := (p.1 + c.toNat) % 65521; (x, (p.2 + x) % 65521)) (1, 0)
  y * 65536 + x

/-- A zlib stream (RFC 1950). What follows its trailer is not read. -/
def inflateZlib (dict b : List Byte) : Option (List Byte) :=
  let fdict := beAt b 1 1 / 32 % 2 = 1
  if b.length < 6 ∨ beAt b 0 2 % 31 ≠ 0 ∨ beAt b 0 1 % 16 ≠ 8 ∨ 8 ≤ beAt b 0 1 / 16 ∨
      (fdict ∧ beAt b 2 4 ≠ adler32 dict) then none
  else
    match inflateRaw dict (b.drop (if fdict then 6 else 2)) with
    | some (out, rest) => if 4 ≤ rest.length ∧ beAt rest 0 4 = adler32 out then some out else none
    | none => none

/-- Behind a zero-terminated string. -/
def afterZero (b : List Byte) : List Byte := (b.dropWhile (· != 0)).drop 1

/-- The body of a gzip member (RFC 1952), none where its header is bad. -/
def gzipBody (b : List Byte) : Option (List Byte) :=
  let flg := beAt b 3 1
  if b.length < 18 ∨ beAt b 0 3 ≠ 0x1F8B08 ∨ 32 ≤ flg then none
  else
    let r := b.drop 10
    let r := if flg / 4 % 2 = 1 then r.drop (2 + leAt r 0 2) else r
    let r := if flg / 8 % 2 = 1 then afterZero r else r
    let r := if flg / 16 % 2 = 1 then afterZero r else r
    if flg / 2 % 2 = 1 then
      if leAt r 0 2 = crc32 0xEDB88320 (b.take (b.length - r.length)) % 65536 then some (r.drop 2) else none
    else some r

/-- The members of a gzip stream. -/
def inflateGzip (dict : List Byte) : Nat → List Byte → Option (List Byte)
  | 0, _ => none
  | fuel + 1, b =>
    match (gzipBody b).bind (inflateRaw dict) with
    | none => none
    | some (out, rest) =>
      if rest.length < 8 ∨ leAt rest 0 4 ≠ crc32 0xEDB88320 out ∨ leAt rest 4 4 ≠ out.length % 2 ^ 32 then none
      else if rest.length = 8 then some out
      else (inflateGzip dict fuel (rest.drop 8)).map (out ++ ·)

/-- INFLATE of a wrapper (R266): none where the input is no valid stream or its wrapper check fails. -/
@[irreducible] def decompress (wrapper : Nat) (dict src : List Byte) : Option (List Byte) :=
  match wrapper with
  | 0 => (inflateRaw dict src).map Prod.fst
  | 1 => inflateZlib dict src
  | 2 => inflateGzip dict (src.length + 1) src
  | _ => none

/-! ## Compression -/

/-- The bits of a number, highest first. -/
def codeBits (n v : Nat) : List Bool := (List.range n).map fun i => v / 2 ^ (n - 1 - i) % 2 == 1

/-- Bits packed into bytes, lowest first. -/
def packBits (bs : List Bool) : List Byte :=
  toLe ((bs.length + 7) / 8) (bs.foldr (fun b n => 2 * n + b.toNat) 0)

/-- One block of literals in the fixed code. -/
def literalBlock (b : List Byte) : List Byte :=
  packBits ([true, true, false] ++ (b.flatMap fun x =>
    if x.toNat < 144 then codeBits 8 (0x30 + x.toNat) else codeBits 9 (0x190 + (x.toNat - 144))) ++ List.replicate 7 false)

/-- The literals of an input in a wrapper. -/
def literalStream (wrapper : Nat) (dict b : List Byte) : List Byte :=
  match wrapper with
  | 1 =>
    (if dict.isEmpty then [0x78, 0x01] else [0x78, 0x20] ++ toBe 4 (adler32 dict)) ++ literalBlock b ++ toBe 4 (adler32 b)
  | 2 => [0x1F, 0x8B, 0x08, 0, 0, 0, 0, 0, 0, 0xFF] ++ literalBlock b ++ toLe 4 (crc32 0xEDB88320 b) ++ toLe 4 b.length
  | _ => literalBlock b

/-- DEFLATE of a wrapper and level (R266): a stream of the device's choice among those that decompress to the input. -/
@[irreducible] def compress (fmt : Nat) (dict src : List Byte) : List Byte :=
  let own := Config.compress fmt dict src
  if decompress (fmt % 4) dict own = some src then own else literalStream (fmt % 4) dict src

end Sys2Proof.Machine
end

