-- ==== Sys2Proof/Machine/Jobs.lean ====
section
/-! DEFINITION. Look-aside and transform jobs (R238, R251 to R258, R263 to R266): assignment to lanes, the checks of a
job, the cipher jobs, CRC, Reed–Solomon and Deflate, and their completions. -/

namespace Sys2Proof.Machine

/-! ## Job blocks (R255) -/

def jobCode (b : List Byte) : Nat := leAt b 0 1
def jobFlag (b : List Byte) (i : Nat) : Bool := leAt b 1 1 / 2 ^ i % 2 == 1
def jobDstLen (b : List Byte) : Nat := leAt b 32 4
def jobSa (b : List Byte) : Nat := leAt b 36 4 % 2 ^ 22
def jobIv (b : List Byte) : List Byte := slice b 40 12
def jobParam (b : List Byte) : Nat := leAt b 52 8

/-- The buffers of a gather list that cover `n` bytes. -/
def listBufs : Nat → List Byte → Nat → List (Nat × Nat)
  | 0, _, _ => []
  | k + 1, b, n => if n = 0 then [] else (leAt b 0 8, leAt b 8 4) :: listBufs k (b.drop 16) (n - leAt b 8 4)

/-- The output buffers of a job; its DST list follows the SRC list behind the block. -/
def jobDst (b : List Byte) : List (Nat × Nat) :=
  if jobFlag b 1 then listBufs 16 (b.drop (64 + (if jobFlag b 0 then 256 else 0))) (jobDstLen b)
  else [(leAt b 16 8, jobDstLen b)]

/-! ## Completion -/

/-- The entry of a job still waits for it: its queue has not ended it. -/
def jobOpen (s : State) (j : Job) : Bool :=
  match tget s.wq.queues j.qid with
  | some q => q.entries.any fun e => e.idx == j.idx && e.state == .started
  | none => false

/-- Take a job off the section. -/
def dropJob (s : State) (n : Nat) : State := { s with cph := { s.cph with jobs := terase s.cph.jobs n } }

/-- Complete a job: status, detail and output length (R257, R342). -/
def finishJob (s : State) (n : Nat) (j : Job) (status detail len : Nat) : State :=
  kick (flushQ (settleEntry (dropJob s n) j.qid j.idx status detail (toLe 4 len)) j.qid) j.fid

/-- Write output into the job's buffers (R251, R313). -/
def jobWrite (s : State) (j : Job) (bufs : List (Nat × Nat)) (b : List Byte) : State :=
  let pasid := (tget s.wq.queues j.qid).bind Queue.pasid
  writeSge s j.fid pasid bufs b

/-- The outcome of a read: the bytes, or why it failed. -/
def readOf : HostRead → List Byte ⊕ ReadFail
  | .ok b => .inl b
  | .fail r => .inr r

/-- Count a job of a function (CPH_PAGE_CNT). -/
def countJob (s : State) (j : Job) (authFail refused : Bool) : State :=
  let s := match authFail, j.lane with
    | true, some l => pmuEvent s (0x600 + l) 0x5303 1 (some j.fid)
    | _, _ => s
  { s with cph := { s.cph with pageCnt := tmod s.cph.pageCnt j.fid (0, 0, 0, 0) fun (a, b, c, d) =>
    ((a + 1) % 2 ^ 48, (b + jobBytes j.block) % 2 ^ 48, (c + authFail.toNat) % 2 ^ 48, (d + refused.toNat) % 2 ^ 48) } }

/-- A read of a job failed (R292, R311): behind a Page Request the job stays, otherwise its entry fails. -/
def failJob (s : State) (n : Nat) (j : Job) (r : ReadFail) : State :=
  let s := failRead s j.qid j.idx r
  if pageHeld s j.fid j.qid j.idx then s
  else kick (dropJob (if isTransform j.block then s else countJob s j false false) n) j.fid

/-! ## Cipher jobs (R256) -/

/-- The SA suits the job (R256). -/
def saSuits (b : List Byte) (a : Sa) : Bool :=
  match jobCode b with
  | 0x01 => a.typ == 8 && a.alg ≤ 2
  | 0x02 => a.typ == 8 && a.alg ≤ 2
  | 0x03 => a.typ == 8 && a.alg ≤ 1
  | 0x04 => a.typ == 8 && a.alg ≤ 1
  | 0x05 => a.typ == 8 && 3 ≤ a.alg && jobSrcLen b % saDuBytes a == 0
  | 0x06 => a.typ == 8 && 3 ≤ a.alg && jobSrcLen b % saDuBytes a == 0
  | 0x08 => a.typ == 6
  | 0x09 => a.typ == 7
  | _ => false

/-- Bytes of a TLS record ahead of the ciphertext: the explicit nonce of TLS 1.2 with GCM (RFC 5288). -/
def tlsLead (a : Sa) : Nat := if saTlsVer a = 3 && a.alg != 2 then 8 else 0

/-- The output a cipher job needs. -/
def jobNeeds (b : List Byte) (a : Sa) : Nat :=
  let n := jobSrcLen b
  match jobCode b with
  | 0x01 => n + 16
  | 0x02 => n - 16
  | 0x03 => 16
  | 0x04 => 0
  | 0x08 => tlsLead a + n + (if saTlsVer a = 4 then 1 else 0) + 16
  | 0x09 => n - 16 - tlsLead a
  | _ => n

/-- The SA of a job may be used by it (R257); a TLS_RX SA too has reached HARD_SEQ there. -/
def jobKeyOk (s : State) (j : Job) : Bool :=
  let n := jobSa j.block
  let a := saOf s n
  saUsable s n && a.fid == j.fid && saSuits j.block a && (a.typ != 7 || a.seq < a.hard)

/-- Give a job to its lane (R238): its key is settled here (R243), and a TLS_SEAL that will run takes its SEQ. A job
whose SA is being fetched waits (R241). -/
def assignJob (s : State) (n : Nat) (j : Job) : State :=
  let sa := jobSa j.block
  if isTransform j.block || j.lane.isSome then s
  else
    match leastLoaded (jobLoad s false) (jobLanes s) with
    | none => s
    | some l =>
      let ok := jobKeyOk s j
      if ok && !s.cph.cached.contains sa then s
      else
        let a := saOf s sa
        let (q, s) := if ok && j.rec'.isNone && jobCode j.block == 0x08 && jobNeeds j.block a ≤ jobDstLen j.block then
            takeSeq s sa else (j.seq, s)
        let j := { j with lane := some l, rec' := if j.rec'.isSome then j.rec' else if ok then some a else none, seq := q }
        let s := pmuEvent s (0x600 + l) 0x5301 1 (some j.fid)
        { s with cph := { s.cph with jobs := tset s.cph.jobs n j } }

/-- LOOKASIDE_JOB_ASSIGN (R238). -/
def execLookasideJobAssign (n : Nat) (s : State) : Host.Outcome State Fault Refusal :=
  live s fun s => match tget s.cph.jobs n with
    | some j => assignJob s n j
    | none => s

/-- The nonce of a TLS record (RFC 8446, RFC 5288, RFC 7905). -/
def tlsNonce (a : Sa) (seq : Nat) : List Byte :=
  if tlsLead a = 8 then a.salt.take 4 ++ toBe 8 seq else toBe 12 (beNat a.salt ^^^ seq)

/-- The associated data of a TLS record: the record header, and in TLS 1.2 SEQ ahead of type, version and length. -/
def tlsAad (a : Sa) (seq typ ptLen recLen : Nat) : List Byte :=
  if saTlsVer a = 4 then [0x17, 0x03, 0x03] ++ toBe 2 recLen
  else toBe 8 seq ++ toBe 1 typ ++ [0x03, 0x03] ++ toBe 2 ptLen

/-- XTS over the data units of an input, numbered from `du` on. -/
def xtsUnits (f : Nat → List Byte → List Byte) (size : Nat) : Nat → Nat → List Byte → List Byte
  | 0, _, _ => []
  | k + 1, du, b => f du (b.take size) ++ xtsUnits f size k (du + 1) (b.drop size)

/-- The job opens an input of more than 64 KiB, which the lane reads twice (R253). -/
def readsTwice (b : List Byte) : Bool :=
  (jobCode b == 0x02 || jobCode b == 0x09) && 65536 < jobSrcLen b

/-- Open a ciphertext (R253): the tag is checked over `ct`, and the plaintext written is that of `again`, the last reading
of the same bytes. -/
def openAgain (alg : Nat) (key nonce aad ct tag again : List Byte) : Option (List Byte) :=
  (aeadOpen alg key nonce aad ct tag).map fun _ => aeadStream alg key nonce again

/-- The result of a cipher job on its input: the output, or none where a tag fails. `seq` is the SEQ it uses, `again` the
input as read last (R253). -/
def cipherOut (a : Sa) (b : List Byte) (seq : Nat) (src again aad : List Byte) : Option (List Byte) :=
  let n := src.length
  let key := saKey a
  let tag := src.drop (n - 16)
  match jobCode b with
  | 0x01 => let (ct, t) := aeadSeal a.alg key (jobIv b) aad src; some (ct ++ t)
  | 0x02 => if n < 16 then none else openAgain a.alg key (jobIv b) aad (src.take (n - 16)) tag (again.take (n - 16))
  | 0x03 => some (aeadSeal a.alg key (jobIv b) aad []).2
  | 0x04 => if n ≠ 16 then none else (aeadOpen a.alg key (jobIv b) aad [] src).map fun _ => []
  | 0x05 => some (xtsUnits (xtsUnit false key) (saDuBytes a) (n / saDuBytes a) (jobParam b) src)
  | 0x06 => some (xtsUnits (xtsUnit true key) (saDuBytes a) (n / saDuBytes a) (jobParam b) src)
  | 0x08 =>
    let typ := jobParam b % 256
    let pt := if saTlsVer a = 4 then src ++ toBe 1 typ else src
    let (ct, t) := aeadSeal a.alg key (tlsNonce a seq) (tlsAad a seq typ n (pt.length + 16)) pt
    some ((if tlsLead a = 8 then toBe 8 seq else []) ++ ct ++ t)
  | 0x09 =>
    let lead := tlsLead a
    if n < lead + 16 then none
    else
      let nonce := if lead = 8 then a.salt.take 4 ++ src.take 8 else tlsNonce a seq
      openAgain a.alg key nonce (tlsAad a seq (beAt aad 0 1) (n - lead - 16) n) (slice src lead (n - lead - 16)) tag
        (slice again lead (n - lead - 16))
  | _ => none

/-- A TLS_OPEN under a record succeeded (R256): SEQ + 1 in the SA while the record is still its own (R243), and in the
jobs at lanes under the same record. -/
def openedSeq (s : State) (sa : Nat) (a : Sa) : State :=
  let s := if (saOf s sa).gen = a.gen then modSa s sa fun a => { a with seq := a.seq + 1 } else s
  let next := fun (j : Job) => match j.rec' with
    | some r => if jobSa j.block = sa ∧ r.gen = a.gen then { j with rec' := some { r with seq := r.seq + 1 } } else j
    | none => j
  { s with cph := { s.cph with changed := insNat sa s.cph.changed, jobs := s.cph.jobs.map fun p => (p.1, next p.2) } }

/-- A cipher job ends with its input read: its output, or AUTH_FAIL with nothing written (R252). A second reading that
failed ends a job whose tag is good with its reason. -/
def cipherJob (s : State) (n : Nat) (j : Job) (a : Sa) (src aad : List Byte) (again : List Byte ⊕ ReadFail) : State :=
  let opens := jobCode j.block == 0x09
  let last := match again with | .inl b => b | .inr _ => src
  match cipherOut a j.block (if opens then a.seq else j.seq) src last aad, again with
  | none, _ => finishJob (countJob s j true false) n j 0x04 0 0
  | some _, .inr r => failJob s n j r
  | some out, .inl _ =>
    let s := if opens then openedSeq s (jobSa j.block) a else s
    finishJob (jobWrite (countJob s j false false) j (jobDst j.block) out) n j 0 0 out.length

/-- LOOKASIDE_JOB_DONE (R252, R253, R257, R258): what the lane's reads gave, of SRC, of SRC again where the job reads it
twice, and of the associated data. -/
def execLookasideJobDone (n : Nat) (src : SourceRead) (aad : HostRead) (s : State) : Host.Outcome State Fault Refusal :=
  live s fun s => match tget s.cph.jobs n with
    | none => s
    | some j =>
      match j.lane with
      | none => s
      | some l =>
        if isTransform j.block then s
        else if !jobOpen s j then dropJob s n
        else
          let s := count (count s (Reg.LANE_JOBS l)) (Reg.LANE_BYTES l) (jobBytes j.block)
          match j.rec' with
          | none => finishJob (countJob s j false true) n j 0x01 0x20 0
          | some a =>
            if jobDstLen j.block < jobNeeds j.block a then finishJob (countJob s j false false) n j 0x01 0x21 0
            else
              match src.first, aad with
              | .ok x, .ok y =>
                let x := x.take (jobSrcLen j.block)
                let z := if readsTwice j.block then (readOf src.again).map (List.take (jobSrcLen j.block)) id else .inl x
                cipherJob s n j a x (y.take (jobAadLen j.block)) z
              | .fail r, _ => failJob s n j r
              | _, .fail r => failJob s n j r

/-! ## CRC (R264) -/

/-- A reflected CRC of a byte string from a register value. -/
def crcRun (poly c : Nat) (b : List Byte) : Nat :=
  b.foldl (fun c x => (List.range 8).foldl (fun c _ => crcBit poly c) (c ^^^ x.toNat)) c

/-- A CRC of `w` bits with initial value and final XOR all ones; with `seed` it goes on from a previous result. -/
def crcJob (w poly : Nat) (seed : Option Nat) (b : List Byte) : Nat :=
  let ones := 2 ^ w - 1
  crcRun poly (match seed with | some x => x % 2 ^ w ^^^ ones | none => ones) b ^^^ ones

/-! ## Reed–Solomon over GF(2^8) with polynomial 0x11D (R265) -/

/-- Product of two field elements. -/
def gfMul (a b : Nat) : Nat :=
  ((List.range 8).foldl (fun (p : Nat × Nat) i =>
    (if b / 2 ^ i % 2 = 1 then p.1 ^^^ p.2 else p.1, if p.2 * 2 < 256 then p.2 * 2 else (p.2 * 2) ^^^ 0x11D)) (0, a)).1

/-- The inverse of a field element other than 0: its 254th power. -/
def gfInv (a : Nat) : Nat := (List.range 6).foldl (fun r _ => gfMul (gfMul r r) a) a |> fun r => gfMul r r

/-- c(j, i) of R265. -/
def rsCoef (j i : Nat) : Nat := gfInv (j ^^^ (8 + i))

/-- Sum and scaling of byte strings. -/
def gfAdd (a b : List Byte) : List Byte := a.zipWith (· ^^^ ·) b
def gfScale (c : Nat) (a : List Byte) : List Byte := a.map fun x => BitVec.ofNat 8 (gfMul c x.toNat)

/-- Parity shard `j` of some data shards, given with their numbers. -/
def rsSum (j len : Nat) (data : List (Nat × List Byte)) : List Byte :=
  data.foldl (fun acc p => gfAdd acc (gfScale (rsCoef j p.1) p.2)) (List.replicate len 0)

/-- Solve a system whose leading minors are not 0, each row its coefficients and its right side, by elimination
without exchange of rows. -/
def gfSolve : Nat → List (List Nat × List Byte) → List (List Byte)
  | 0, _ => []
  | _, [] => []
  | n + 1, (c, r) :: rows =>
    let inv := gfInv (c.headD 1)
    let c1 := c.tail.map (gfMul inv)
    let r1 := gfScale inv r
    let xs := gfSolve n (rows.map fun (c', r') =>
      let k := c'.headD 0
      (List.zipWith (fun a b => a ^^^ gfMul k b) c'.tail c1, gfAdd r' (gfScale k r1)))
    (List.zip c1 xs).foldl (fun acc p => gfAdd acc (gfScale p.1 p.2)) r1 :: xs

/-- Shard `i` of shards laid out one after another. -/
def shardOf (b : List Byte) (len i : Nat) : List Byte := slice b (len * i) len

/-- Rebuild the erased shards of `k` data and `m` parity shards: their numbers and bytes. -/
def rsRebuild (k m len er : Nat) (b : List Byte) : List (Nat × List Byte) :=
  let gone := fun i => er / 2 ^ i % 2 == 1
  let lost := (List.range k).filter gone
  let have' := ((List.range k).filter fun i => !gone i).map fun i => (i, shardOf b len i)
  let par := ((List.range m).filter fun j => !gone (k + j)).take lost.length
  let sys := par.map fun j => (lost.map (rsCoef j), gfAdd (shardOf b len (k + j)) (rsSum j len have'))
  let data := List.zip lost (gfSolve lost.length sys)
  data ++ ((List.range m).filter fun j => gone (k + j)).map fun j => (k + j, rsSum j len (have' ++ data))

/-! ## Transform jobs -/

/-- Count a transform job on its engine. -/
def countXfm (s : State) (e out : Nat) (j : Job) : State :=
  count (count (count s (Reg.XFM_JOBS e)) (Reg.XFM_IN_BYTES e) (jobSrcLen j.block)) (Reg.XFM_OUT_BYTES e) out

/-- A job whose output goes to DST whole, or not at all. -/
def wholeOut (s : State) (n e : Nat) (j : Job) (out : List Byte) : State :=
  if jobDstLen j.block < out.length then finishJob (countXfm s e 0 j) n j 0x01 0x21 0
  else finishJob (jobWrite (countXfm s e out.length j) j (jobDst j.block) out) n j 0 0 out.length

/-- A stream that cannot be written whole: up to DST_LEN bytes of it may have been written (R257). -/
def partOut (s : State) (n e : Nat) (j : Job) (detail : Nat) (out : List Byte) : State :=
  let (v, s) := free s
  let k := v.toNat % (jobDstLen j.block + 1)
  finishJob (jobWrite (countXfm s e k j) j (jobDst j.block) (out.take k)) n j 0x01 detail 0

/-- A DEFLATE or INFLATE job. -/
def streamJob (s : State) (n e : Nat) (j : Job) (src dict : List Byte) : State :=
  let fmt := jobParam j.block % 16
  match (if jobCode j.block = 0x14 then some (compress fmt dict src) else decompress (fmt % 4) dict src) with
  | some out =>
    if out.length ≤ jobDstLen j.block then wholeOut s n e j out else partOut s n e j 0x21 (out.take (jobDstLen j.block))
  | none =>
    let (b, s) := freeBytes s (jobDstLen j.block / 8 + 1)
    partOut s n e j 0x22 (b.take (jobDstLen j.block))

/-- An RS job: the input is the table of shard addresses and the shards behind it. -/
def rsJob (s : State) (n e : Nat) (j : Job) (src : List Byte) : State :=
  let p := jobParam j.block
  let k := p % 256
  let m := p / 256 % 256
  let er := p / 65536 % 2 ^ 40
  let len := jobSrcLen j.block
  let b := src.drop (8 * (k + m))
  let addr := fun i => leAt src (8 * i) 8
  let dec := jobCode j.block == 0x13
  let erased := (List.range 40).filter fun i => er / 2 ^ i % 2 == 1
  if k = 0 ∨ 32 < k ∨ m = 0 ∨ 8 < m ∨ (dec ∧ (m < erased.length ∨ 2 ^ (k + m) ≤ er)) then
    finishJob (countXfm s e 0 j) n j 0x01 0x23 0
  else
    let outs := if dec then rsRebuild k m len er b
      else (List.range m).map fun i => (k + i, rsSum i len ((List.range k).map fun d => (d, shardOf b len d)))
    if jobDstLen j.block < outs.length * len then finishJob (countXfm s e 0 j) n j 0x01 0x21 0
    else
      let s := outs.foldl (fun s o => jobWrite s j [(addr o.1, len)] o.2) (countXfm s e (outs.length * len) j)
      finishJob s n j 0 0 (outs.length * len)

/-- A transform job ends with its input read. -/
def transformJob (s : State) (n e : Nat) (j : Job) (src dict : List Byte) : State :=
  let b := j.block
  let x := src.take (jobSrcLen b)
  let seed := if jobFlag b 2 then some (jobParam b) else none
  match jobCode b with
  | 0x10 => wholeOut s n e j (toLe 4 (crcJob 32 0x82F63B78 seed x))
  | 0x11 => wholeOut s n e j (toLe 8 (crcJob 64 0x9A6C9329AC4BC9B5 seed x))
  | 0x12 => rsJob s n e j src
  | 0x13 => rsJob s n e j src
  | _ => streamJob s n e j x (dict.take (jobAadLen b))

/-- TRANSFORM_JOB_DONE (R263). -/
def execTransformJobDone (n : Nat) (src dict : HostRead) (s : State) : Host.Outcome State Fault Refusal :=
  live s fun s => match tget s.cph.jobs n with
    | none => s
    | some j =>
      if !isTransform j.block then s
      else if !jobOpen s j then dropJob s n
      else
        let e := j.lane.getD 0
        match src, dict with
        | .ok x, .ok d => transformJob s n e j x d
        | .fail r, _ => failJob s n j r
        | _, .fail r => failJob s n j r

end Sys2Proof.Machine
end

