-- ==== Sys2Proof/Machine/Memory.lean ====
section
/-! DEFINITION. The scratchpad banks, their owners and handovers (R403 to R410), the march engine (R411 to R414), and the
HBM controllers (R415 to R419). -/

namespace Sys2Proof.Machine

/-! ## Memory contents -/

/-- Bytes of a bank, and of a word of it. -/
def bankBytes : Nat := 131072
def spmAddr (bank off : Nat) : Nat := bank * 2 ^ 20 + off
def hbmAddr (stack off : Nat) : Nat := stack * 2 ^ 40 + off

/-- What an unlisted byte reads as (assumption 4, DESIGN CHOICE). -/
def memDefault (_ : Nat) : Byte := 0

/-- One byte of the SPM, of the HBM. -/
def spmByte (m : Memory) (a : Nat) : Byte := sget memDefault m.spm a
def hbmByte (m : Memory) (a : Nat) : Byte := sget memDefault m.hbm a

/-- The canonical form of both memories. -/
def Memory.wf (m : Memory) : Bool := swf memDefault m.spm && swf memDefault m.hbm

/-- Write bytes from an address on. -/
def putCells (m : List (Nat × Byte)) (a : Nat) : List Byte → List (Nat × Byte)
  | [] => m
  | b :: bs => putCells (sput memDefault m a b) (a + 1) bs

/-- Set every byte of a range to 0. -/
def zeroCells (m : List (Nat × Byte)) (a n : Nat) : List (Nat × Byte) := m.filter fun c => !(a ≤ c.1 && c.1 < a + n)

/-- Write bytes of a bank; the words written lose their poison (R410). -/
def spmWrite (s : State) (bank off : Nat) (b : List Byte) : State :=
  let lo := bank * 16384 + off / 8
  let hi := bank * 16384 + (off + b.length + 7) / 8
  { s with
    mem := { s.mem with spm := putCells s.mem.spm (spmAddr bank off) b }
    memc := { s.memc with spmPoison := s.memc.spmPoison.filter fun w => !(lo ≤ w && w < hi) } }

/-- Write bytes of an HBM stack. -/
def hbmWrite (s : State) (stack off : Nat) (b : List Byte) : State :=
  { s with mem := { s.mem with hbm := putCells s.mem.hbm (hbmAddr stack off) b } }

/-- Zero a bank (R407, R411). -/
def zeroBank (s : State) (bank : Nat) : State :=
  { s with
    mem := { s.mem with spm := zeroCells s.mem.spm (spmAddr bank 0) (2 ^ 20) }
    memc := { s.memc with spmPoison := s.memc.spmPoison.filter fun w => w / 16384 != bank } }

/-! ## Owners (R405 to R409) -/

/-- KIND and ID of a bank's owner. -/
def bankKind (s : State) (n : Nat) : Nat := fld s (Reg.SPM_BANK_OWNER n) 31 29
def bankId (s : State) (n : Nat) : Nat := fld s (Reg.SPM_BANK_OWNER n) 11 0

/-- HANDOVER and FAILED of a bank. -/
def bankMoving (s : State) (n : Nat) : Bool := flag s (Reg.SPM_BANK_STATUS n) 4
def bankFailed (s : State) (n : Nat) : Bool := flag s (Reg.SPM_BANK_STATUS n) 5

/-- The ID bits a kind of owner uses. -/
def ownerId (kind id : Nat) : Nat :=
  match kind with
  | 0 => 0
  | 1 => id % 64
  | 2 => id % 8
  | 3 => id % 64
  | 4 => id % 16
  | _ => id

/-- Start a handover to an owner (R407); one already under way takes the latest owner when it ends. -/
def startHandover (s : State) (n kind id : Nat) (keep : Bool) : State :=
  let w : Word := BitVec.ofNat 32 (kind * 2 ^ 29 + id)
  setFlag { s with memc := { s.memc with handover := tset s.memc.handover n (w, keep) } } (Reg.SPM_BANK_STATUS n) 4 true

/-- A write of SPM_BANK_OWNER (R407, R408). -/
def writeOwner (s : State) (n : Nat) (v : Word) : State :=
  let kind := bits v 31 29
  let id := bits v 11 0
  if bankMoving s n || bankFailed s n || 5 ≤ kind || bankKind s n == 5 then
    hwSet s (Reg.SPM_BANK_STATUS n) 0 31 24
  else if kind = bankKind s n ∧ ownerId kind id = ownerId kind (bankId s n) then s
  else startHandover s n kind id (bits v 28 28 == 1)

/-- SPM_BANK_OWNER_WRITE (R407). -/
def execSpmBankOwnerWrite (m : Master) (n : Nat) (v : Word) (s : State) : Host.Outcome State Fault Refusal :=
  within (n < 256) (onWrite s m fun s => writeOwner s n v)

/-- A handover ends: the bank is zeroed unless KEEP, and the new owner takes effect. -/
def endHandover (s : State) (n : Nat) : State :=
  match tget s.memc.handover n with
  | none => s
  | some (w, keep) =>
    let s := if keep then s else zeroBank s n
    let s := { s with memc := { s.memc with handover := terase s.memc.handover n } }
    setFlag (wr s (Reg.SPM_BANK_OWNER n) w) (Reg.SPM_BANK_STATUS n) 4 false

/-- HANDOVER_COMPLETE (R407). -/
def execHandoverComplete (n : Nat) (s : State) : Host.Outcome State Fault Refusal :=
  within (n < 256) (liveMem s fun s => endHandover s n)

/-- SPM_BANK_COUSER_WRITE (R409). -/
def execSpmBankCouserWrite (m : Master) (n : Nat) (v : Word) (s : State) : Host.Outcome State Fault Refusal :=
  within (n < 256) (onWrite s m fun s => regWrite s (Reg.SPM_BANK_COUSER n) v)

/-! ## Errors and scrub -/

/-- A bank read meets an uncorrectable word (R410). -/
def spmUe (s : State) (n w : Nat) : State :=
  let s := { s with memc := { s.memc with spmPoison := insNat (n * 16384 + w) s.memc.spmPoison } }
  logErr (hwSet s (Reg.SPM_BANK_STATUS n) 3 15 8) 0x0802 2 0x800 [n, w]

/-- SPM_SCRUB (R404, R410). -/
def execSpmScrub (n w : Nat) (e : Ecc) (s : State) : Host.Outcome State Fault Refusal :=
  within (n < 256 && w < 16384) (live s fun s =>
    match e with
    | .clean => s
    | .corrected => logErr (hwSet s (Reg.SPM_BANK_STATUS n) 2 7 0) 0x0801 1 0x800 [n, w]
    | .uncorrectable => spmUe s n w)

/-! ## March engine (R411 to R414) -/

/-- The banks of a run. -/
def marchBanks (r : Nat × Nat × Bool) : List Nat := (List.range r.2.1).map (r.1 + ·)

/-- MARCH_RUN: first bank, count, mode. -/
def marchRunBody : OpBody where
  lenOk := slots 3
  run c s :=
    let f := slot c.params 0
    let n := slot c.params 1
    let m := slot c.params 2
    checked [(0, f < 256), (8, 1 ≤ n && f + n ≤ 256), (16, m ≤ 1)] s fun _ =>
      if m = 1 ∧ s.grade.cur ≠ .provision then .finish (refuse stWrongGrade (gradeCode s.grade.cur)) s
      else if m = 1 ∧ (marchBanks (f, n, true)).any fun b => bankKind s b != 0 then .finish (badParam 0) s
      else if s.memc.march.isSome then .finish (refuse stNoResource) s
      else
        let s := { s with memc := { s.memc with march := some (f, n, m == 1) } }
        grant (setFld (setFld (setFlag s (Reg.SPM_MARCH_STATUS) 31 true) (Reg.SPM_MARCH_STATUS) 30 30 m)
          (Reg.SPM_MARCH_STATUS) 24 16 n)

/-- MARCH_RUN (R412). -/
def execMarchRun (pf : Nat) (buf : ParamBuf) (s : State) : Host.Outcome State Fault Refusal :=
  joryen 0x0800 marchRunBody pf buf s

/-- Repair what a run found in one bank (R414): spare columns first, then spare rows; a bank whose faults exceed its
spares is FAILED. -/
def marchRepair (s : State) (f : MarchFind) : State :=
  let a := Reg.SPM_BANK_STATUS f.bank
  let cols := fld s a 11 10
  let rows := fld s a 15 12
  let useC := min cols f.cols
  let need := f.rows + (f.cols - useC)
  let useR := min rows need
  let s := setFld (setFld s a 11 10 (cols - useC)) a 15 12 (rows - useR)
  let s := if 0 < useC + useR then setFlag s a 6 true else s
  if rows < need then
    let s := hwSet (setFlag s a 5 true) a 1 23 16
    if bankKind s f.bank = 0 then s else logErr s 0x0803 2 0x800 [f.bank]
  else s

/-- A march run ends. -/
def marchDone (s : State) (found : List MarchFind) : State :=
  match s.memc.march with
  | none => s
  | some r =>
    let s := { (found.filter fun f => (marchBanks r).contains f.bank).foldl marchRepair s with mem := s.mem }
    let s := if r.2.2 then (marchBanks r).foldl zeroBank s else s
    let s := { s with memc := { s.memc with march := none } }
    let s := setFld (setFlag s (Reg.SPM_MARCH_STATUS) 31 false) (Reg.SPM_MARCH_STATUS) 24 16 0
    hwSet s (Reg.SPM_MARCH_STATUS) 0 7 0

/-- MARCH_RUN_DONE (R411, R414). -/
def execMarchRunDone (found : List MarchFind) (s : State) : Host.Outcome State Fault Refusal :=
  liveMem s fun s => marchDone s found

/-- MARCH_STATUS: the status word of each bank. -/
def marchStatusBody : OpBody where
  lenOk := noParams
  run _ s := grant s [] ((List.range 256).flatMap fun n => toLe 4 (rd s (Reg.SPM_BANK_STATUS n)).toNat)

/-- MARCH_STATUS (R373). -/
def execMarchStatus (pf : Nat) (buf : ParamBuf) (s : State) : Host.Outcome State Fault Refusal :=
  joryen 0x0801 marchStatusBody pf buf s

/-! ## HBM (R415 to R419) -/

/-- The stack named by slot 0 exists on the variant. -/
def stackObj (c : Ctx) (s : State) : Bool := 2 ≤ slot c.params 0 || slot c.params 0 < hbmCount s.variant

/-- HBM_CFG: stack and scrub interval. -/
def hbmCfgBody : OpBody where
  lenOk := slots 2
  objs := stackObj
  run c s :=
    let k := slot c.params 0
    let h := slot c.params 1
    checked [(0, k < 2), (8, h < 256)] s fun _ => grant (setFld s (Reg.HBM_CFG k) 7 0 h)

/-- HBM_CFG (R417). -/
def execHbmCfg (pf : Nat) (buf : ParamBuf) (s : State) : Host.Outcome State Fault Refusal :=
  joryen 0x0808 hbmCfgBody pf buf s

/-- Hard repairs of a bank so far. -/
def bankRepairs (s : State) (k pch bank : Nat) : Nat :=
  (s.memc.hard.filter fun r => r.1 == k && r.2.pch == pch && r.2.bank == bank).length

/-- HBM_ROW_REPAIR: stack, channel, bank, row. -/
def rowRepairBody : OpBody where
  lenOk := slots 4
  objs := stackObj
  run c s :=
    let k := slot c.params 0
    let p := slot c.params 1
    let b := slot c.params 2
    let r := slot c.params 3
    checked [(0, k < 2), (8, p < 32), (16, b < 256), (24, r < 65536)] s fun _ =>
      if Config.hbmSpares k p b ≤ bankRepairs s k p b then .finish (refuse stNoResource) s
      else grant { s with memc := { s.memc with hard := s.memc.hard ++ [(k, { pch := p, bank := b, row := r, col := 0 })] } }

/-- HBM_ROW_REPAIR (R418). -/
def execHbmRowRepair (pf : Nat) (buf : ParamBuf) (s : State) : Host.Outcome State Fault Refusal :=
  joryen 0x0809 rowRepairBody pf buf s

/-- HBM_QUERY: corrected and uncorrected counts, scrub passes, soft and hard repairs made, then the repair resources
left of each of 32 × 256 banks, one byte each. -/
def hbmQueryBody : OpBody where
  lenOk := slots 1
  objs := stackObj
  run c s :=
    let k := slot c.params 0
    checked [(0, k < 2)] s fun _ =>
      grant s [] (toLe 8 (rd64 s (Reg.HBM_CE_COUNT k)) ++ toLe 8 (rd64 s (Reg.HBM_UE_COUNT k)) ++
        toLe 8 (rd64 s (Reg.HBM_SCRUB_PASSES k)) ++
        toLe 8 (s.memc.soft.filter fun r => r.1 == k).length ++ toLe 8 (s.memc.hard.filter fun r => r.1 == k).length ++
        (List.range 32).flatMap fun p => (List.range 256).flatMap fun b =>
          toLe 1 (Config.hbmSpares k p b - bankRepairs s k p b))

/-- HBM_QUERY (R418). -/
def execHbmQuery (pf : Nat) (buf : ParamBuf) (s : State) : Host.Outcome State Fault Refusal :=
  joryen 0x080A hbmQueryBody pf buf s

/-- The stack is in self-refresh. -/
def selfRefresh (s : State) (k : Nat) : Bool := flag s (Reg.HBM_STATUS k) 3

/-- Count a correction on a row; the count that reaches ROW_CE_LIMIT flags the row, and repairs it softly with AUTO_SPPR
(R417). -/
def rowCorrected (s : State) (k : Nat) (l : HbmLoc) : State :=
  let row := (k, { l with col := 0 })
  let n := ((s.memc.rowCe.find? fun p => p.1 == row).map Prod.snd).getD 0 + 1
  let s := { s with memc := { s.memc with rowCe := (row, n) :: s.memc.rowCe.filter fun p => p.1 != row } }
  if n = fld s (Reg.HBM_CFG k) 15 8 then
    let s := hwSet (wr64 s (Reg.HBM_LAST_ERR k) (hbmErrWord l false)) (Reg.HBM_STATUS k) 2 31 24
    if flag s (Reg.HBM_CFG k) 16 then { s with memc := { s.memc with soft := s.memc.soft ++ [row] } } else s
  else s

/-- One location of a patrol scrub, and the end of a pass (R417). -/
def patrol (s : State) (k : Nat) (l : HbmLoc) (e : Ecc) (passEnd : Bool) : State :=
  if fld s (Reg.HBM_CFG k) 7 0 = 0 then s
  else
    let s := match e with
      | .clean => s
      | .corrected =>
        let s := count (hwSet (wr64 s (Reg.HBM_LAST_ERR k) (hbmErrWord l false)) (Reg.HBM_STATUS k) 0 15 0) (Reg.HBM_CE_COUNT k)
        rowCorrected (logErr s 0x0804 1 (0x810 + k) [hbmErrWord l false]) k l
      | .uncorrectable =>
        { hbmUe s k l with memc := { s.memc with hbmPoison := (k, l) :: s.memc.hbmPoison.filter (· != (k, l)) } }
    if passEnd then
      let s := { s with memc := { s.memc with rowCe := s.memc.rowCe.filter fun p => p.1.1 != k } }
      count s (Reg.HBM_SCRUB_PASSES k)
    else s

/-- HBM_PATROL_SCRUB (R417); in self-refresh the controller scrubs nothing. -/
def execHbmPatrolScrub (k : Nat) (l : HbmLoc) (e : Ecc) (passEnd : Bool) (s : State) : Host.Outcome State Fault Refusal :=
  within (k < hbmCount s.variant) (live s fun s => if selfRefresh s k then s else patrol s k l e passEnd)

/-- HBM_REFRESH (R419): the stack reports its temperature with the refresh; at more than 85 °C the refreshes come twice
as often, which the model does not time. -/
def execHbmRefresh (k : Nat) (t : Byte) (s : State) : Host.Outcome State Fault Refusal :=
  within (k < hbmCount s.variant) (live s fun s =>
    if selfRefresh s k then s else setFld s (Reg.HBM_TEMP k) 7 0 t.toNat)

end Sys2Proof.Machine
end

