-- ==== Sys2Proof/Machine/Functions.lean ====
section
/-! DEFINITION. Functions and isolation: mailboxes (R302 to R305), the DTU (R307 to R311), dirty-page logging (R312 to
R316), quotas and index resources (R317 to R320). -/

namespace Sys2Proof.Machine

/-! ## Mailboxes -/

/-- The VF that FN_MBX_SEL of a PF names, if it exists (R302, R304). -/
def mbxVf (s : State) (pf : Nat) : Option Nat :=
  let i := (fnOf s pf).mbxSel
  let v := vfBase s pf + i - 1
  if 1 ≤ i && 8 ≤ v && pfOf s v == pf && fnPresent s v then some v else none

/-- A VF writes 1 to SEND. -/
def vfSend (s : State) (fid : Nat) : State :=
  if fid < 8 || (fnOf s fid).txBusy then s
  else
    let s := modFn s fid fun f => { f with txBusy := true, mbxPend := true }
    signal s (pfOf s fid) (fnOf s (pfOf s fid)).mbxVec

/-- A VF writes 1 to ACK. -/
def vfAck (s : State) (fid : Nat) : State :=
  if fid < 8 then s else modFn s fid fun f => { f with rxFull := false }

/-- A PF writes 1 to ACK_REQ. -/
def pfAckReq (s : State) (pf : Nat) : State :=
  match mbxVf s pf with
  | none => s
  | some v =>
    let s := modFn s v fun f => { f with txBusy := false, mbxPend := false }
    signal s v (fnOf s v).mbxVec

/-- A PF writes 1 to SEND_REPLY. -/
def pfSendReply (s : State) (pf : Nat) : State :=
  match mbxVf s pf with
  | none => s
  | some v =>
    if (fnOf s v).rxFull then s
    else
      let s := modFn s v fun f => { f with rxFull := true }
      signal s v (fnOf s v).mbxVec

/-- VF_MBX_SEND (R303). -/
def execVfMbxSend (fid : Nat) (s : State) : Host.Outcome State Fault Refusal :=
  within (fid < 4096) (live s fun s => onPage s fid fun s => vfSend s fid)

/-- VF_MBX_ACK (R303). -/
def execVfMbxAck (fid : Nat) (s : State) : Host.Outcome State Fault Refusal :=
  within (fid < 4096) (live s fun s => onPage s fid fun s => vfAck s fid)

/-- PF_MBX_ACK_REQ (R303). -/
def execPfMbxAckReq (pf : Nat) (s : State) : Host.Outcome State Fault Refusal :=
  within (pf < 8) (live s fun s => onPage s pf fun s => pfAckReq s pf)

/-- PF_MBX_SEND_REPLY (R303). -/
def execPfMbxSendReply (pf : Nat) (s : State) : Host.Outcome State Fault Refusal :=
  within (pf < 8) (live s fun s => onPage s pf fun s => pfSendReply s pf)

/-! ## DTU -/

/-- The ranges overlap. -/
def rangesMeet (a n b m : Nat) : Bool := a < b + m && b < a + n

/-- ATS_INVALIDATION (R309): the matching entries are out of use; the reads outstanding now are waited for. -/
def execAtsInvalidation (fid : Nat) (pasid : Option Nat) (iova len : Nat) (s : State) :
    Host.Outcome State Fault Refusal :=
  within (fid < 4096) (live s fun s =>
    if !fnPresent s fid || !(fnOf s fid).ats then s
    else
      let s := { s with host := { s.host with dtu := s.host.dtu.filter fun e =>
        !(e.fid == fid && e.pasid == pasid && rangesMeet e.iova e.size iova len) } }
      modFn (count s (Reg.DTU_INVAL)) fid fun f => { f with invals := f.invals ++ [f.tags.map Prod.fst] })

/-- ATS_INVALIDATION_COMPLETE (R309): none of the reads of the oldest invalidation is outstanding any more. -/
def execAtsInvalidationComplete (fid : Nat) (s : State) : Host.Outcome State Fault Refusal :=
  within (fid < 4096) (live s fun s =>
    let f := fnOf s fid
    match f.invals with
    | [] => s
    | w :: rest =>
      if w.any fun t => (tget f.tags t).isSome then s
      else emit (modFn s fid fun f => { f with invals := rest }) (.pcie "ATS_INVALIDATION_COMPLETION" fid 0))

/-- A held operation ends: another that waits takes its request. -/
def dropPageReq (s : State) (fid req : Nat) : State :=
  sendPageReqs (modFn s fid fun f => { f with pageReqs := f.pageReqs.filter fun r => r.req != req }) fid

/-- A held packet whose page does not come is refused with ACCESS, unless it was received meanwhile (R311). -/
def refuseHeld (s : State) (mac : Nat) (p : WovePkt) : State :=
  let n := whConn p.hdr
  match tget s.wove.conns n with
  | none => s
  | some c =>
    let d := psnDiff c (whPsn p.hdr) c.cum
    if c.state = 3 || d < 0 || 512 ≤ d || c.recvd.contains d.toNat then s else refusePacket s n mac p 0x03

/-- A held operation fails (R310, R311). -/
def failPageReq (s : State) (fid : Nat) (r : PageReq) : State :=
  let s := count (dropPageReq s fid r.req) (Reg.DTU_PRI_FAIL)
  match r.pkt with
  | some (mac, p) => revokesDone (refuseHeld s mac p)
  | none =>
  let s := { s with cph := { s.cph with jobs := s.cph.jobs.filter fun p => !(p.2.qid == r.qid && p.2.idx == r.entry) } }
  kick (failEntry s r.qid r.entry 0x30) fid

/-- A packet that passed its window check before it was held is placed in full, unless it was received meanwhile (R210). -/
def placeHeld (s : State) (mac : Nat) (p : WovePkt) (w : HeldWrite) : State :=
  let n := whConn p.hdr
  match tget s.wove.conns n with
  | none => s
  | some c =>
    let d := psnDiff c (whPsn p.hdr) c.cum
    if c.state = 3 || d < 0 || 512 ≤ d || c.recvd.contains d.toNat then s
    else if let some r := fnGone s w.fid then brokePacket s mac r p
    else if !(fnOf s w.fid).bme then brokePacket s mac 0x10 p
    else writeHeld s n p w

/-- A held operation goes on: a packet is placed or taken again; a frame's payload is read again; a job, a WR or a descriptor waits
for its own read. -/
def resumePageReq (s : State) (fid : Nat) (r : PageReq) : State :=
  let s := dropPageReq s fid r.req
  match r.pkt with
  | some (mac, p) =>
    let p := { p with translated := true }
    revokesDone (match r.held with | some w => placeHeld s mac p w | none => takePacket s mac p)
  | none =>
  match tget s.wq.queues r.qid with
  | none => s
  | some q =>
    match q.entries.find? fun e => e.idx == r.entry && e.op == 0x01 && e.state == .started && e.data.isNone with
    | some e => issueRead s r.qid q e
    | none => s

/-- The outstanding Page Request of that number. -/
def pageReqOf (s : State) (fid req : Nat) : Option PageReq :=
  (fnOf s fid).pageReqs.find? fun r => r.req == req && r.sent

/-- PAGE_RESPONSE_RECEIVE (R310). -/
def execPageResponseReceive (fid req : Nat) (good : Bool) (s : State) : Host.Outcome State Fault Refusal :=
  within (fid < 4096) (live s fun s => match pageReqOf s fid req with
    | none => s
    | some r => if good then resumePageReq s fid r else failPageReq s fid r)

/-- PRI_TIMEOUT (R310). -/
def execPriTimeout (fid req : Nat) (s : State) : Host.Outcome State Fault Refusal :=
  within (fid < 4096) (live s fun s => match pageReqOf s fid req with
    | none => s
    | some r => failPageReq s fid r)

/-! ## Quotas (R317 to R319) -/

/-- The device capacity of a resource, where it has one (R317). -/
def capacity (code : Nat) : Option Nat :=
  match code with
  | 0 => some 4088 | 1 => some 65536 | 2 => some 32768 | 4 => some 1048576 | 5 => some 4194304 | 6 => some 4194304
  | 7 => some 241591910 | 8 => some 4096 | 9 => some 256 | 10 => some 256
  | _ => none

/-- The per-function limit of a resource for a function. -/
def ownLimit (fid code : Nat) : Option Nat := if code = 3 then some (msixSize fid) else fnLimit code

/-- The value is within the function's limit (R317). -/
def limitOk (fid code v : Nat) : Bool := match ownLimit fid code with | some l => decide (v ≤ l) | none => true

/-- The sum of quotas of a resource with the VFs of the network PFs left out (R318), without the target's. -/
def quotaSum (s : State) (target code : Nat) : Nat :=
  (((List.range 8 ++ vfsOf s 0).filter (· != target)).map fun f => quotaOf s f code).sum

/-- A quota set for a resource of a function: the reply that refuses it, if one does. -/
def quotaCheck (s : State) (t code v : Nat) : Option Reply :=
  let vf := 8 ≤ t
  let p := pfOf s t
  let counted := code < 11
  if code = 0 ∧ vf then some (badParam 0)
  else if code = 11 ∧ !(1 ≤ v && v ≤ 1024) then some (badParam 8)
  else if code = 12 ∧ 25600 < v then some (badParam 8)
  else if counted ∧ !limitOk t code (if vf || t = 0 || code = 0 then v else v - vfQuotas s t code) then some (badParam 8)
  else
    let others := vfQuotas s p code - (if code = 3 then (tget (fnOf s t).quota code).getD 0 else quotaOf s t code)
    if counted ∧ vf ∧ p ≠ 0 ∧ !limitOk p code (quotaOf s p code - others - v) then some (badParam 8)
    else if code = 0 ∧ (List.range 8).any fun n => t ≤ n && (fnOf s n).vfEnable then some (refuse stNoResource)
    else if counted ∧ vf ∧ p ≠ 0 then
      if quotaOf s p code < others + v then some (refuse stNoResource) else none
    else
      match capacity code with
      | some c => if counted && c < quotaSum s t code + v then some (refuse stNoResource) else none
      | none => none

/-- Set a quota. -/
def setQuota (s : State) (t code v : Nat) : State :=
  modFn s t fun f => { f with quota := sput (quotaReset t) f.quota code v }

/-- FN_QUOTA_SET: resource and value. -/
def quotaSetBody : OpBody where
  lenOk := slots 2
  objs c _ := c.pf == 0 || 8 ≤ c.target
  own c _ := ownTarget c
  run c s :=
    let code := slot c.params 0
    let v := slot c.params 1
    checked [(0, code ≤ 12)] s fun _ =>
      match quotaCheck s c.target code v with
      | some r => .finish r s
      | none => grant (msixFlush (setQuota s c.target code v) c.target)

/-- FN_QUOTA_SET (R317). -/
def execFnQuotaSet (pf : Nat) (buf : ParamBuf) (s : State) : Host.Outcome State Fault Refusal :=
  joryen 0x0100 quotaSetBody pf buf s

/-- FN_QUOTA_QUERY (R516). -/
def quotaQueryBody : OpBody where
  lenOk := noParams
  own c _ := ownTarget c
  run c s :=
    grant s [] ((List.range 13).flatMap fun code =>
      toLe 8 (quotaOf s c.target code) ++ toLe 8 (ownUse s c.target code) ++
      toLe 8 (if 1 ≤ c.target ∧ c.target < 8 then vfUse s c.target code else 0))

/-- FN_QUOTA_QUERY (R516). -/
def execFnQuotaQuery (pf : Nat) (buf : ParamBuf) (s : State) : Host.Outcome State Fault Refusal :=
  joryen 0x0101 quotaQueryBody pf buf s

/-! ## Index resources (R320) -/

/-- The index resources of a function, by code. -/
def indexList (f : Fn) (code : Nat) : List Nat :=
  match code with | 8 => f.trigSlots | 9 => f.cphPages | _ => f.banks

/-- Change that list. -/
def setIndexList (s : State) (fid code : Nat) (l : List Nat) : State :=
  modFn s fid fun f => match code with
    | 8 => { f with trigSlots := l }
    | 9 => { f with cphPages := l }
    | _ => { f with banks := l }

/-- The index is assigned to some function. -/
def indexTaken (s : State) (code i : Nat) : Bool := s.host.fns.any fun p => (indexList p.2 code).contains i

/-- FN_RES_ASSIGN: resource and global index. -/
def resAssignBody : OpBody where
  lenOk := slots 2
  objs c _ := c.pf == 0
  own c _ := ownTarget c
  run c s :=
    let code := slot c.params 0
    let i := slot c.params 1
    let t := c.target
    checked [(0, 8 ≤ code && code ≤ 10),
        (8, i < (capacity code).getD 0 && !indexTaken s code i &&
          (code != 10 || (bankKind s i == 0 && !bankMoving s i)))] s fun _ =>
      if !mayTake s t code 1 || (code == 10 && bankFailed s i) then .finish (refuse stNoResource) s
      else
        let l := indexList (fnOf s t) code
        let s := setIndexList s t code (l ++ [i])
        let s := if code = 10 then startHandover s i 5 t false
          else if code = 8 then modTrig s i fun x => { x with owner := some t } else s
        grant s [BitVec.ofNat 32 l.length]

/-- FN_RES_ASSIGN (R320). -/
def execFnResAssign (pf : Nat) (buf : ParamBuf) (s : State) : Host.Outcome State Fault Refusal :=
  joryen 0x0102 resAssignBody pf buf s

/-- Take back the index resource a function was given last: a trigger slot is cleared (R165), a cipher page is no one's,
a bank is handed over without KEEP (R408). -/
def releaseRes (s : State) (t code : Nat) : State :=
  let l := indexList (fnOf s t) code
  match l.getLast? with
  | none => s
  | some i =>
    let s := if code = 8 then modTrig (clearTrig s t (l.length - 1) i) i fun x => { x with owner := none }
      else if code = 9 then { s with cph := { s.cph with pageSel := terase s.cph.pageSel i } }
      else startHandover s i 0 0 false
    setIndexList s t code l.dropLast

/-- FN_RES_RELEASE: resource. -/
def resReleaseBody : OpBody where
  lenOk := slots 1
  own c _ := ownTarget c
  run c s :=
    let code := slot c.params 0
    checked [(0, 8 ≤ code && code ≤ 10 && !(indexList (fnOf s c.target) code).isEmpty)] s fun _ =>
      grant (releaseRes s c.target code)

/-- FN_RES_RELEASE (R320). -/
def execFnResRelease (pf : Nat) (buf : ParamBuf) (s : State) : Host.Outcome State Fault Refusal :=
  joryen 0x0103 resReleaseBody pf buf s

/-! ## Dirty-page logging (R312 to R316) -/

/-- Functions that log. -/
def dirtyCount (s : State) : Nat := (s.host.fns.filter fun p => p.2.dirty.isSome).length

/-- FN_DIRTY_START: BASE, LENGTH, bitmap IOVA. -/
def dirtyStartBody : OpBody where
  lenOk := slots 3
  own c _ := ownTarget c
  run c s :=
    let b := slot c.params 0
    let n := slot c.params 1
    let m := slot c.params 2
    checked [(0, b % 4096 == 0 && (fnOf s c.target).dirty.isNone), (8, n % 4096 == 0 && 0 < n && n ≤ 2 ^ 40),
        (16, m % 8 == 0)] s fun _ =>
      if 64 ≤ dirtyCount s then .finish (refuse stNoResource) s
      else grant (modFn s c.target fun f => { f with dirty := some { base := b, length := n, bitmap := m } })

/-- FN_DIRTY_START (R312). -/
def execFnDirtyStart (pf : Nat) (buf : ParamBuf) (s : State) : Host.Outcome State Fault Refusal :=
  joryen 0x0104 dirtyStartBody pf buf s

/-- FN_DIRTY_SWAP: new bitmap IOVA. -/
def dirtySwapBody : OpBody where
  lenOk := slots 1
  own c _ := ownTarget c
  run c s :=
    match (fnOf s c.target).dirty with
    | none => .finish (badParam 0) s
    | some d =>
      checked [(0, slot c.params 0 % 8 == 0)] s fun _ =>
        let s := dirtyFlush s c.target
        let s := modFn s c.target fun f => { f with
          dirty := some { d with bitmap := slot c.params 0, bits := [], changed := [], faulted := false } }
        grant (kick s c.target) [BitVec.ofNat 32 d.bits.length]

/-- FN_DIRTY_SWAP (R315). -/
def execFnDirtySwap (pf : Nat) (buf : ParamBuf) (s : State) : Host.Outcome State Fault Refusal :=
  joryen 0x0105 dirtySwapBody pf buf s

/-- FN_DIRTY_STOP. -/
def dirtyStopBody : OpBody where
  lenOk := noParams
  own c _ := ownTarget c
  run c s :=
    match (fnOf s c.target).dirty with
    | none => .finish (badParam 0) s
    | some _ =>
      let s := dirtyFlush s c.target
      grant (kick (modFn s c.target fun f => { f with dirty := none }) c.target)

/-- FN_DIRTY_STOP (R316). -/
def execFnDirtyStop (pf : Nat) (buf : ParamBuf) (s : State) : Host.Outcome State Fault Refusal :=
  joryen 0x0106 dirtyStopBody pf buf s

/-- DIRTY_WORD_WRITE (R314). -/
def execDirtyWordWrite (fid w : Nat) (s : State) : Host.Outcome State Fault Refusal :=
  within (fid < 4096) (live s fun s => dirtyIssue s fid w)

/-- DIRTY_WRITE_FAIL (R316): the function fetches nothing until a swap or a stop. -/
def execDirtyWriteFail (fid : Nat) (s : State) : Host.Outcome State Fault Refusal :=
  within (fid < 4096) (live s fun s =>
    match (fnOf s fid).dirty with
    | none => s
    | some d =>
      hwSet (modFn s fid fun f => { f with dirty := some { d with faulted := true } }) (Reg.FN_DIRTY_STATUS) 0 7 0)

end Sys2Proof.Machine
end

