-- ==== Sys2Proof/Machine/Grades.lean ====
section
/-! DEFINITION. Operating grades (R27 to R37): requests, the drain, completion of a transition with everything the
target grade enforces, and the power limits a grade sets on dividers and domains (R421 to R427). -/

namespace Sys2Proof.Machine

/-! ## Dividers, caps and domains -/

/-- The most the variant may draw, in W (R32). -/
def variantMax (v : Variant) : Nat := match v with | .ax => 300 | .bx => 190

/-- The cap setting. -/
def capSetting (s : State) : Nat := fld s (Reg.DRY_CAP) 8 0

/-- The grade whose power limits hold: in DRAIN those of the working grade it was entered from (R427). -/
def powerGrade (s : State) : Grade := if s.grade.cur = .drain then s.dry.drainFrom else s.grade.cur

/-- The grade cap in W (R427). -/
def gradeCap (s : State) : Nat :=
  match powerGrade s with
  | .deterministic => min (capSetting s) (min 280 (variantMax s.variant))
  | .capped => capSetting s
  | .standby => 25
  | _ => variantMax s.variant

/-- The effective cap in W (R427). -/
def effCap (s : State) : Nat := min (gradeCap s) (fld s (Reg.DRY_EFF_CAP) 24 16)

/-- The fastest divider a grade permits (R27, GLB_CLK_STATUS.CORE_DIV_MIN). -/
def divMin (g : Grade) : Nat := match g with | .deterministic => 1 | .sealed => 1 | .standby => 3 | _ => 0

/-- Whether the grade locks the dividers (R27, R427). -/
def divLocked (g : Grade) : Bool := g == .deterministic || g == .standby

/-- The divider in use of a quire. -/
def quireDiv (s : State) (q : Nat) : Nat := fld s (Reg.QUIRE_STATUS q) 9 8

/-- The divider a quire should have: the grade's fastest, slowed by the steps in force (R431), root/3 or slower after
an AVS fault (R444), and root/6 throughout a thermal emergency (R440). -/
def divTarget (s : State) (q : Nat) : Nat :=
  let g := powerGrade s
  if s.dry.emergency then 3
  else
    let floor := if s.dry.avsHeld.isEmpty then 0 else 1
    if divLocked g then max floor (divMin g)
    else max floor (min 3 (divMin g + (s.dry.steps.filter (· == .quire q)).length))

/-- Lower the quires that run faster than they should; raising waits for the rail (R432). -/
def lowerDivs (s : State) : State :=
  (List.range (quireCount s.variant)).foldl (fun s q =>
    setFld s (Reg.QUIRE_STATUS q) 9 8 (max (quireDiv s q) (divTarget s q))) s

/-- Put every quire at the divider the grade locks. -/
def lockDivs (s : State) : State :=
  (List.range (quireCount s.variant)).foldl (fun s q => setFld s (Reg.QUIRE_STATUS q) 9 8 (divTarget s q)) s

/-- STATE of a domain (R422): 0 OPEN, 1 CLOSING, 2 CLOSED, 3 OPENING. -/
def domState (s : State) (d : Nat) : Nat := fld s (Reg.DRY_DOMAIN_STATE d) 2 0
def setDom (s : State) (d st : Nat) : State := setFld s (Reg.DRY_DOMAIN_STATE d) 2 0 st

/-- The dryer closed the domain on its own. -/
def byDryer (s : State) (d : Nat) : Bool := flag s (Reg.DRY_DOMAIN_STATE d) 3

/-- Begin to open a domain: a CLOSED one is OPENING, one that is CLOSING opens once CLOSED (R423). -/
def startOpen (s : State) (d : Nat) : State :=
  if domState s d = 2 then setDom s d 3
  else if domState s d = 1 then { s with dry := { s.dry with reopen := insNat d s.dry.reopen } }
  else s

/-- Leaving CAPPED: reopen every domain the dryer closed on its own (R423). -/
def reopenDryer (s : State) : State :=
  let s := (List.range 29).foldl (fun s d => if byDryer s d then startOpen s d else s) s
  { s with dry := { s.dry with
    steps := s.dry.steps.filter fun x => match x with | .domain _ => false | _ => true
    toClose := s.dry.toClose.filter fun d => !s.dry.steps.contains (.domain d) } }

/-! ## Requests (R30 to R32) -/

/-- The request sets LAST_STATUS. -/
def lastStatus (s : State) (st : Nat) : State := setFld s (Reg.GLB_GRADE_STATUS) 31 16 st

/-- The request completes or ends: DONE and LAST_STATUS. -/
def gradeDone (s : State) (st : Nat) : State := lastStatus (hwSet s (Reg.GLB_GRADE_STATUS) 1 7 0) st

/-- The request is refused: REFUSED and LAST_STATUS. -/
def gradeRefused (s : State) (st : Nat) : State := lastStatus (hwSet s (Reg.GLB_GRADE_STATUS) 2 15 8) st

/-- The table of R31, without "=": the transition is accepted as far as grades go. FROZEN only while the freeze is
armed. -/
def gradeMay (s : State) (from' to' : Grade) : Bool :=
  match to' with
  | .provision => from' == .drain || from' == .standby
  | .standby => from' == .provision || from' == .drain
  | .drain => working from'
  | .frozen => s.obs.armed
  | _ => from' != .frozen

/-- The refusal of a request that is not "=", if there is one: R31, then the conditions of R32 in the order of R365. -/
def gradeRefusal (s : State) (g : Grade) : Option Nat :=
  let cur := s.grade.cur
  if !gradeMay s cur g then some stWrongGrade
  else if cur = .provision ∧ g ≠ .standby ∧ g ≠ .frozen ∧ !s.grade.cfgCommitted then some stWrongGrade
  else if g = .capped ∧ !(120 ≤ capSetting s && capSetting s ≤ variantMax s.variant) then some stBadParam
  else if g = .deterministic ∧ capSetting s < 150 then some stBadParam
  else if g = .sealed ∧ laneState s 8 ≠ 2 then some stNoResource
  else none

/-- A request for a grade by either path: the refusing status if it is refused, and whether a transition started. -/
def requestGrade (s : State) (g : Grade) (byPf : Option Nat) : Option Nat × Bool × State :=
  if s.grade.target.isSome then (some stBusy, false, gradeRefused s stBusy)
  else if s.grade.cur = g then (none, false, gradeDone s stOk)
  else
    match gradeRefusal s g with
    | some st => (some st, false, gradeRefused s st)
    | none =>
      let s := if s.grade.cur = .capped ∧ g ≠ .frozen then reopenDryer s else s
      let s := if g = .frozen then raiseTrig s 5 else s
      (none, true, { s with grade := { s.grade with target := some g, byPf := byPf, committed := false } })

/-- GRADE_REQUEST_WRITE (R31). -/
def execGradeRequestWrite (m : Master) (v : Word) (s : State) : Host.Outcome State Fault Refusal :=
  onWrite s m fun s => (requestGrade s (gradeOf (bits v 2 0)) none).2.2

/-- GRADE_SET: the target grade. -/
def gradeSetBody : OpBody where
  lenOk := slots 1
  run c s :=
    if 8 ≤ slot c.params 0 then .finish (badParam 0) s
    else
      match requestGrade s (gradeOf (slot c.params 0)) (some c.pf) with
      | (some st, _, t) =>
        .finish (if st = stWrongGrade then refuse st (gradeCode s.grade.cur) else refuse st) t
      | (none, true, t) => .wait false t
      | (none, false, t) => grant t

/-- GRADE_SET (R31). -/
def execGradeSet (pf : Nat) (buf : ParamBuf) (s : State) : Host.Outcome State Fault Refusal :=
  joryen 0x0002 gradeSetBody pf buf s

/-! ## Transitions (R33 to R36) -/

/-- Settle the GRADE_SET that runs the transition, if one does, and end the transition with that status. -/
def endTransition (s : State) (st : Nat) : State :=
  let s := gradeDone s st
  let s := match s.grade.byPf with
    | some pf => settle s pf 0x0002 { status := st, committed := true }
    | none => s
  { s with grade := { s.grade with target := none, byPf := none, committed := false } }

/-- DRAIN_ACCEPTANCE_STOP (R34): the commit point of a transition into DRAIN. -/
def execDrainAcceptanceStop (s : State) : Host.Outcome State Fault Refusal :=
  live s fun s =>
    if s.grade.target = some .drain ∧ s.grade.cur ≠ .drain then
      let s := match s.grade.byPf with
        | some pf => modChan s pf fun ch => { ch with
            cmd := ch.cmd.map fun (c : Running) => if c.phase = CmdPhase.working then { c with committed := true } else c }
        | none => s
      { s with
        dry := { s.dry with drainFrom := s.grade.cur }
        grade := { s.grade with cur := .drain, committed := true } }
    else s

/-- No fetched work is outstanding (R28): no fetched and uncompleted entry of a HOST_TX, WOVE_SQ or XFM queue. -/
def noFetchedWork (s : State) : Bool :=
  s.wq.queues.all fun p => !(p.2.type == 0 || p.2.type == 2 || p.2.type == 4) || p.2.entries.isEmpty

/-- GLB_GRADE_STATUS.DRAIN_IDLE. -/
def drainIdle (s : State) : Bool := s.grade.cur == .drain && noFetchedWork s

/-- The transition into DRAIN is complete. -/
def drainComplete (s : State) : State :=
  if s.grade.target = some .drain ∧ drainIdle s then endTransition s stOk else s

/-- Bring every link to L0 at full width (R279). -/
def widenLinks (s : State) : State :=
  { s with host := { s.host with links := tmap s.host.links fun _ l =>
    if l.pm = 1 then { l with pm := 0, active := l.width } else l } }

/-- The divider and pipe-clock limits of the grade in force take hold (R27, R427). -/
def applyPower (s : State) : State :=
  let g := powerGrade s
  let s := if g = .capped then s else
    setFlag { s with dry := { s.dry with
      steps := s.dry.steps.filter (· != .pipeSlow)
      pipeAt := if flag s (Reg.DRY_STATUS) 7 then some s.deviceTime.toNat else s.dry.pipeAt } } (Reg.DRY_STATUS) 7 false
  if divLocked g then
    lockDivs { s with dry := { s.dry with steps := s.dry.steps.filter fun x => match x with | .quire _ => false | _ => true } }
  else lowerDivs s

/-- A grade takes effect with everything it enforces (R27, R29, R34): the clocks, at SEALED the check of every queued
frame and the RoCEv2 connections (R233), in DETERMINISTIC the full link width (R279), in STANDBY low-power idle of the
ports that may use it, at PROVISION the stored choice of the root source and of the SyncE lane (R16, R186). -/
def enterGrade (s : State) (g : Grade) : State :=
  let s := applyPower { s with grade := { s.grade with cur := g } }
  match g with
  | .sealed => roceSealed ((portMacs s).foldl sealPurge s)
  | .deterministic => widenLinks s
  | .standby => (portMacs s).foldl lpiEnter s
  | .provision => { s with
      grade := { s.grade with rootSyncE := flag s (Reg.GLB_CLK_CTRL) 0 }
      time := { s.time with synceLane := fld s (Reg.TIM_SYNCE_SEL) 3 0 } }
  | _ => s

/-- No domain that the dryer closed is still on its way back. -/
def dryerDomainsBack (s : State) : Bool := (List.range 29).all fun d => !byDryer s d || domOpen s d

/-- GRADE_TRANSITION_COMPLETE (R34). A freeze completes by its own event (R508); SEALED waits for the end of an
unencrypted frame in transmission, so that none leaves once it takes effect (R29; assumption 94, DEDUCED). -/
def execGradeTransitionComplete (s : State) : Host.Outcome State Fault Refusal :=
  live s fun s =>
    match s.grade.target with
    | none => s
    | some .frozen => s
    | some .drain => drainComplete s
    | some g =>
      if s.grade.cur = .capped ∧ !dryerDomainsBack s then s
      else if g = .sealed ∧ unsealedTx s then s
      else endTransition (enterGrade s g) stOk

/-- DRAIN_IDLE_REACHED (R36): DRAIN_IDLE reads 1 from the moment no fetched work is left; the transition that waits for
it completes. -/
def execDrainIdleReached (s : State) : Host.Outcome State Fault Refusal := live s drainComplete

/-- DRAIN_TIMEOUT (R36). -/
def execDrainTimeout (s : State) : Host.Outcome State Fault Refusal :=
  live s fun s =>
    if s.grade.target = some .drain ∧ s.grade.cur = .drain then
      hwSet (endTransition s stTimeout) (Reg.GLB_GRADE_STATUS) 3 23 16
    else s

/-- A GRADE_SET of PF `pf` is ended by an abort (R35): before its commit point the device stays in the source grade, and
the freeze that a request for FROZEN raised is not accepted any more; after it the transition goes on without the
command. -/
def abortGradeSet (s : State) (pf : Nat) : State :=
  if s.grade.byPf = some pf then
    let s := gradeDone s stAborted
    if s.grade.committed then { s with grade := { s.grade with byPf := none } }
    else { s with
      grade := { s.grade with target := none, byPf := none }
      obs := if s.grade.target = some .frozen then { s.obs with trig := s.obs.trig &&& 31 } else s.obs }
  else s

/-- ROOT_FALLBACK (R16). -/
def execRootFallback (s : State) : Host.Outcome State Fault Refusal :=
  live s fun s =>
    if s.grade.rootSyncE then
      hwSet { s with grade := { s.grade with rootSyncE := false } } (Reg.GLB_CLK_STATUS) 8 15 0
    else s

end Sys2Proof.Machine
end

