-- ==== Sys2Proof/Machine/Reset.lean ====
section
/-! DEFINITION. The resets of the device (R446 to R449): POR_N, the device reset and a thermal trip, and what the device
does when one of them ends: straps, cause, order of boot sources, domains, link. The host resets are in HostLink. -/

namespace Sys2Proof.Machine

/-! ## What a reset clears -/

/-- A register word that outlives a reset: the always-powered reset cause (R449) and the pin levels, which the board
drives; at a device reset also what only POR_N clears (R446). -/
def keepWord (v : Variant) (por : Bool) (a : Nat) : Bool :=
  a == Reg.GLB_PIN_LEVEL ||
  match rowOf v a with
  | some (r, _) => r.aon || (!por && r.porOnly)
  | none => false

/-- What outlives every reset: fuses, flashes, straps as the board drives them, whether FROZEN ended, and
THERM_TRIP_N. -/
def bootKept (b : BootState) : BootState :=
  { fuses := b.fuses, flash := b.flash, verRecs := b.verRecs, straps := b.straps, frozenExit := b.frozenExit,
    tripLow := b.tripLow }

/-- Everything POR_N resets, at its reset value (R446): only the cause register, the board's levels, fuses, flashes and
permanent row repairs stay. `p` is what then holds the device. -/
def porState (s : State) (p : Power) : State :=
  { pending := s.pending
    variant := s.variant
    power := p
    deviceTime := 0
    fresh := s.fresh
    regs := s.regs.filter fun w => keepWord s.variant true w.1
    out := s.out
    host := { perstLow := s.host.perstLow }
    boot := bootKept s.boot
    memc := { hard := s.memc.hard } }

/-- The repairs of SPM banks, which hold until POR_N (R414): the spares left, REPAIRED and FAILED. -/
def keepRepairs (old s : State) : State :=
  (List.range 256).foldl (fun s b =>
    let a := Reg.SPM_BANK_STATUS b
    setFld (setFld s a 15 10 (fld old a 15 10)) a 6 5 (fld old a 6 5)) s

/-- Everything a device reset resets (R446): besides what POR_N keeps, the straps as sampled, DEVICE_TIME, the registers
that only POR_N clears, the error log, sticky AER fields, and soft row repairs stay. -/
def deviceReset (s : State) : State :=
  let t := porState s .hold
  keepRepairs s { t with
    deviceTime := s.deviceTime
    regs := s.regs.filter fun w => keepWord s.variant false w.1
    obs := { errQ := s.obs.errQ, errRecs := s.obs.errRecs }
    host := { perstLow := s.host.perstLow
              split := s.host.split
              fns := tmap s.host.fns fun _ f => { aer := f.aer, aerMask := f.aerMask } }
    memc := { hard := s.memc.hard, soft := s.memc.soft } }

/-! ## Boot sources (R451, R452) -/

/-- The sources of an order code. -/
def bootOrder (code : Nat) : List Nat :=
  match code with
  | 1 => [1, 0, 2, 3]
  | 2 => [0, 1, 3, 2]
  | 3 => [2, 3]
  | 4 => [3, 2]
  | 5 => [0]
  | 6 => [0, 1]
  | _ => [0, 1, 2, 3]

/-- STAGE of BOOT_STATUS: 0 ROM, 1 LOADING, 2 PUSH_WAIT, 3 RECOVERY_WAIT, 4 RUNNING. -/
def stage (s : State) : Nat := fld s (Reg.BOOT_STATUS) 2 0
def setStage (s : State) (v : Nat) : State := setFld s (Reg.BOOT_STATUS) 2 0 v

/-- STATE of BOOT_REC_STATUS: 0 CLOSED, 1 OPEN, 2 LOADING, 3 ACCEPTED, 4 REJECTED. -/
def recState (s : State) : Nat := fld s (Reg.BOOT_REC_STATUS) 2 0
def setRec (s : State) (v : Nat) : State := setFld s (Reg.BOOT_REC_STATUS) 2 0 v

/-- The ROM takes the source at the head of the order, or waits for a push once every source has failed (R452). -/
def enterSource (s : State) : State :=
  match s.boot.sources with
  | [] => setRec (setStage s 3) (if recState s = 4 then 4 else 1)
  | 2 :: _ => setRec (setStage s 2) 1
  | 3 :: _ => setRec (setStage s 2) 0
  | _ :: _ => setRec (setStage s 1) 0

/-- The effective minimum of stage 1 (`i` = 0) or management (`i` = 1): the largest of the fused floor and the newer valid
copy in each flash (R457). -/
def minVer (b : BootState) (i : Nat) : Nat :=
  let of' := fun (r : VerRec) => if i = 0 then r.stage1 else r.mgmt
  let inFlash := fun f => match tget b.verRecs (2 * f), tget b.verRecs (2 * f + 1) with
    | some x, some y => if y.seq < x.seq then of' x else of' y
    | some x, none => of' x
    | none, some y => of' y
    | none, none => 0
  max (if i = 0 then b.fuses.floor1 else b.fuses.floor2) (max (inFlash 0) (inFlash 1))

/-- Show the effective minimums. -/
def showMinVer (s : State) : State :=
  wr (wr s (Reg.BOOT_MINVER 0) (BitVec.ofNat 32 (minVer s.boot 0))) (Reg.BOOT_MINVER 1) (BitVec.ofNat 32 (minVer s.boot 1))

/-- Replace DBG_CHALLENGE by a fresh 48-byte value (R505), which the spec leaves to chance. -/
def newChallenge (s : State) : State :=
  (List.range 12).foldl (fun s w =>
    let (v, s) := free s
    wr s (Reg.DBG_CHALLENGE w) (v.setWidth 32)) s

/-- The domains of absent units, and of the lane groups and pipe pairs whose SHAPE is 0, are held CLOSED (R421, R422). -/
def closeUnused (s : State) : State :=
  let absent := match s.variant with | .ax => [] | .bx => [6, 7, 28]
  ([21, 22, 23, 24, 25, 26] ++ absent).foldl (fun s d => setDom s d 2) s

/-- The device comes out of a reset and the ROM runs (R450): the clocks start, the boot sources are set up, the host
links train unless PERST_N is low. -/
def bootStart (s : State) : State :=
  let s := { s with
    power := .run
    boot := { s.boot with sources := bootOrder (fld s (Reg.BOOT_STRAPS) 10 8) } }
  let s := { s with host := { s.host with
    split := flag s (Reg.BOOT_STRAPS) 3
    links := [(0, { pm := if s.host.perstLow then 6 else 5 }), (1, { pm := if s.host.perstLow then 6 else 5 })] } }
  enterSource (closeUnused (newChallenge (showMinVer s)))

/-! ## The commands -/

/-- POR_ASSERT (R446): in every state; all is held at reset values until POR_RELEASE. -/
def execPorAssert (s : State) : Host.Outcome State Fault Refusal :=
  let t := porState s .porLow
  .next { t with boot := { t.boot with frozenExit := s.boot.frozenExit || s.grade.cur == .frozen } }

/-- BOOT_STRAPS as the straps and the order fuse give it (R451, R470). -/
def strapWord (s : State) : Word :=
  let code := s.boot.fuses.order.getD (s.boot.straps % 8)
  BitVec.ofNat 32 (s.boot.straps % 64 + (if code = 7 then 0 else code % 8) * 256 +
    (if s.boot.fuses.order.isSome then 2048 else 0))

/-- POR_RELEASE (R449, R450, R470, R471): the straps are sampled and the cause recorded, the freeze is armed where
its strap asks for it and FREEZE_N is high, and the ROM starts. -/
def porRelease (s : State) : State :=
  let s := wr { s with deviceTime := 0 } (Reg.BOOT_STRAPS) (strapWord s)
  let s := hwSet s (Reg.BOOT_RESET_CAUSE) 1 7 0
  let s := if s.boot.frozenExit then hwSet s (Reg.BOOT_RESET_CAUSE) 4 19 16 else s
  let s := if s.boot.tripLow then emit s (.pin "THERM_TRIP_N" true) else s
  let s := { s with boot := { s.boot with frozenExit := false, tripLow := false } }
  let code := s.boot.fuses.order.getD (s.boot.straps % 8)
  let s := if code = 7 then logErr s 0x0003 0 0x000 [] else s
  let s := if flag s (Reg.BOOT_STRAPS) 5 then
      if flag s (Reg.GLB_PIN_LEVEL) 6 then
        wr { s with obs := { s.obs with armed := true } } (Reg.FRZ_CFG) 1
      else logErr s 0x0B02 0 0xB00 []
    else s
  bootStart s

/-- POR_RELEASE (R450). -/
def execPorRelease (s : State) : Host.Outcome State Fault Refusal :=
  if s.power = .porLow then
    let t := porRelease s
    .next { t with pending := s.pending, variant := s.variant }
  else .next s

/-- A device reset starts (R447): the cause is recorded, everything but the always-powered logic is held. -/
def startDeviceReset (s : State) : State := deviceReset (hwSet s (Reg.BOOT_RESET_CAUSE) 2 11 8)

/-- BOOT_DEV_RESET_WRITE (R447): 0xD5 starts a device reset; the memories are reset with it (R446). -/
def execBootDevResetWrite (m : Master) (v : Word) (s : State) : Host.Outcome State Fault Refusal :=
  if clocked s && reachesBar0 s m then
    if bits v 7 0 = 0xD5 then
      let t := startDeviceReset s
      .next { t with pending := s.pending, variant := s.variant, deviceTime := s.deviceTime }
    else .next s
  else onWrite s m id

/-- DEVICE_RESET_HOLD_END (R447): after the 10 µs the device proceeds as after POR_N release, without sampling straps. -/
def execDeviceResetHoldEnd (s : State) : Host.Outcome State Fault Refusal :=
  if s.power = .hold then
    let t := bootStart s
    .next { t with pending := s.pending, variant := s.variant, deviceTime := s.deviceTime, mem := s.mem }
  else .next s

/-- THERMAL_TRIP (R440): as if POR_N were asserted, until POR_N is next released; the cause is kept and THERM_TRIP_N
driven low (R486). -/
def execThermalTrip (sensor : Nat) (s : State) : Host.Outcome State Fault Refusal :=
  within (sensor < 64)
    (if clocked s then
      let t := porState (hwSet s (Reg.BOOT_RESET_CAUSE) 3 15 12) .tripped
      .next { emit t (.pin "THERM_TRIP_N" false) with boot := { t.boot with tripLow := true } }
    else .next s)

/-- VDD_AON_POWER_UP (R449): with POR_N low, VDD_AON returns, and its removal has cleared the cause. -/
def execVddAonPowerUp (s : State) : Host.Outcome State Fault Refusal :=
  if s.power = .porLow then
    let t := wr (wr s (Reg.BOOT_RESET_CAUSE) 1) (Reg.BOOT_RESET_CAUSE_OCC) 0x00100000
    .next { t with boot := { t.boot with frozenExit := false } }
  else .next s

end Sys2Proof.Machine
end

