-- ==== Sys2Proof/Machine/TraceMem.lean ====
section
/-! DEFINITION. Trace to memory (R497, R498, R501): where a source may write, its circular buffer, and the flush of its
FIFO. -/

namespace Sys2Proof.Machine

/-- The bank lets the source write: a core trace unit as owner of KIND 3 or as co-user, a pipe as owner of KIND 4
(R405, R497). -/
def traceBankOk (s : State) (src bank : Nat) : Bool :=
  if src < 64 then
    (bankKind s bank == 3 && bankId s bank % 64 == src) ||
    (flag s (Reg.SPM_BANK_COUSER bank) 15 && fld s (Reg.SPM_BANK_COUSER bank) 5 0 == src) ||
    (flag s (Reg.SPM_BANK_COUSER bank) 31 && fld s (Reg.SPM_BANK_COUSER bank) 21 16 == src)
  else bankKind s bank == 4 && bankId s bank % 16 == src - 64

/-- Where HBM_0 and HBM_1 stand in the addresses of R376, the bytes of a stack, and the range of HBM_0 in general use
(R415). -/
def hbmBase (stack : Nat) : Nat := 0x1000000000 * (stack + 1)
def hbmBytes : Nat := 0x861C46800
def generalUse : Nat := 0x280000000

/-- The HBM range lies within HBM_1 or within the general-use range of HBM_0 (R497). -/
def traceRangeOk (s : State) (base len : Nat) : Bool :=
  (hbmBase 0 + generalUse ≤ base && base + len ≤ hbmBase 0 + hbmBytes) ||
  (hbmCount s.variant == 2 && hbmBase 1 ≤ base && base + len ≤ hbmBase 1 + hbmBytes)

/-- The destination that a TRC_CTL word names is allowed (R497). -/
def traceDestOk (s : State) (src : Nat) (ctl : Word) : Bool :=
  if bits ctl 29 29 = 1 then
    traceRangeOk s (rd64 s (Reg.TRC_HBM_BASE src)) (fld s (Reg.TRC_SIZE src) 19 0 * 4096)
  else traceBankOk s src (bits ctl 7 0)

/-- The buffer of a source in 16-byte units. -/
def traceUnits (s : State) (src : Nat) : Nat :=
  if flag s (Reg.TRC_CTL src) 29 then fld s (Reg.TRC_SIZE src) 19 0 * 256 else bankBytes / 16

/-- Write 16 bytes at a unit of the buffer. -/
def traceUnitWrite (s : State) (src unit : Nat) (b : List Byte) : State :=
  if flag s (Reg.TRC_CTL src) 29 then
    let a := rd64 s (Reg.TRC_HBM_BASE src) + 16 * unit
    if a < hbmBase 1 then hbmWrite s 0 (a - hbmBase 0) b else hbmWrite s 1 (a - hbmBase 1) b
  else spmWrite s (fld s (Reg.TRC_CTL src) 7 0) (16 * unit) b

/-- Write `n` units of a record from the write pointer on; at the end of the buffer it wraps (R497). -/
def traceStore (s : State) (src : Nat) : Nat → List Byte → State
  | 0, _ => s
  | n + 1, b =>
    let a := Reg.TRC_WPTR src
    let off := fld s a 27 0
    let s := traceUnitWrite s src off (b.take 16)
    let s := if off + 1 < traceUnits s src then setFld s a 27 0 (off + 1)
      else setFld (setFld s a 27 0 0) a 31 28 (fld s a 31 28 + 1)
    traceStore s src n (b.drop 16)

/-- Units left before the end of the buffer. -/
def traceRoom (s : State) (src : Nat) : Nat := traceUnits s src - fld s (Reg.TRC_WPTR src) 27 0

/-- The source's next record waits: its bank is in handover (R498), or its STOP_FULL buffer is full (R497). -/
def traceWaits (s : State) (src : Nat) : Bool :=
  (!(flag s (Reg.TRC_CTL src) 29) && bankMoving s (fld s (Reg.TRC_CTL src) 7 0)) || flag s (Reg.TRC_STATUS src) 1

/-- The head of a source's FIFO goes to memory (R498). One whose bank belongs to another by now is discarded (R407); one
that no longer fits a STOP_FULL buffer sets FULL and waits. -/
def traceOut (s : State) (src : Nat) : State :=
  match (srcOf s src).fifo with
  | [] => s
  | r :: rest =>
    let popped := modSrc s src fun t => { t with fifo := rest }
    let units := ceilDiv r.length 16
    let ctl := rd s (Reg.TRC_CTL src)
    if !traceOn s src || traceWaits s src then s
    else if !traceDestOk s src ctl || traceUnits s src == 0 then popped
    else if bits ctl 30 30 = 1 then
      if traceRoom s src < units then setFlag s (Reg.TRC_STATUS src) 1 true
      else
        let full := traceRoom s src == units
        let s := traceStore popped src units r
        if full then setFlag s (Reg.TRC_STATUS src) 1 true else s
    else traceStore popped src units r

/-- A source flushes its FIFO (R501): as many records as it holds go out, as far as its buffer takes them. -/
def traceFlush (s : State) (src : Nat) : State :=
  (srcOf s src).fifo.foldl (fun s _ => traceOut s src) s

end Sys2Proof.Machine
end

