-- ==== Sys2Proof/Machine/Cores.lean ====
section
/-! DEFINITION. Data cores and their threads (R374 to R399): contexts and traps, channel items and their targets, the
Xfzchan instructions, blocking and wake, the timer, and the start, stop and failure of quires and cores. -/

namespace Sys2Proof.Machine

/-! ## Harts and contexts -/

/-- The core (8q + c) and the thread of an mhartid (R374). -/
def hartCore (h : Nat) : Nat := h / 8
def hartThread (h : Nat) : Nat := h % 8

/-- The variant has the hart. -/
def hartOk (s : State) (h : Nat) : Bool := h < 64 * quireCount s.variant

/-- The reset value of a context item: TIMER_CMP is all ones, everything else 0. -/
def ctxReset (i : Nat) : DWord := if i = 0x15C0 then 0xFFFFFFFFFFFFFFFF else 0

/-- Context items of a thread (THREAD_CTX_SEL.ITEM), as stored. -/
def ctxOfThread (s : State) (h i : Nat) : DWord := sget ctxReset (threadOf s (hartCore h) (hartThread h)).ctx i
def setCtx (s : State) (h i : Nat) (v : DWord) : State :=
  modThread s (hartCore h) (hartThread h) fun t => { t with ctx := sput ctxReset t.ctx i v }

/-- Integer registers: x0 reads 0 and discards writes. -/
def xreg (s : State) (h r : Nat) : DWord := if r = 0 then 0 else ctxOfThread s h (1 + r)
def setXreg (s : State) (h r : Nat) (v : DWord) : State := if r = 0 then s else setCtx s h (1 + r) v

/-- The pc, moved past one instruction. -/
def nextPc (s : State) (h : Nat) : State := setCtx s h 0 (ctxOfThread s h 0 + 4)

/-- The privilege of a thread: 0 U, 1 S, 3 M. -/
def privOf (s : State) (h : Nat) : Nat := (ctxOfThread s h 1).toNat

/-- The CLASS of a thread's context (R433): 0 SCHEDULED to 3 BACKGROUND. -/
def threadClass (s : State) (h : Nat) : Nat := (ctxOfThread s h 0x21).toNat % 4

/-- The hart's thread; a change of it. -/
def hartOf (s : State) (h : Nat) : Thread := threadOf s (hartCore h) (hartThread h)
def modHart (s : State) (h : Nat) (f : Thread → Thread) : State := modThread s (hartCore h) (hartThread h) f

/-- The thread is RUNNING, on a core that runs. -/
def hartRuns (s : State) (h : Nat) : Bool := coreTakes s (hartCore h) && (hartOf s h).st == 1

/-- Words staged by a thread. -/
def stagedWords (t : Thread) : Nat := (t.staged.map fun x => x.2.length).sum

/-- THREAD_STATE of a core. -/
def threadStates (s : State) (c : Nat) : Nat :=
  ((List.range 8).map fun t => (threadOf s c t).st % 8 * 8 ^ t).sum

/-! ## Items of the device -/

/-- SRC of an item a core sends (R381). -/
def coreSrc (h : Nat) : Nat := h / 64 * 512 + h / 8 % 8 * 64 + h % 8

/-- The device puts an item of its own at an endpoint, or keeps it until one fits (R382). -/
def deviceItem (s : State) (c p : Nat) (words : List DWord) : State :=
  let l := epQueue s c p
  if l.length < 64 && !(s.cores.waiting.any fun w => w.1 == c && w.2.1 == p) then setEp s c p (l ++ [{ words := words }])
  else { s with cores := { s.cores with waiting := s.cores.waiting ++ [(c, p, words)] } }

/-- The words of a FAULT item (R397). -/
def faultItem (s : State) (h typ cause : Nat) (pc tval : DWord) (staged items : Nat) : List DWord :=
  [itemHeader 3 5 0 (coreSrc h) (typ * 65536 + cause % 65536), pc, tval, s.deviceTime,
   BitVec.ofNat 64 (staged % 65536 * 65536 + items % 65536)]

/-! ## Traps (R396) -/

/-- One bit, or a field, of a CSR of a thread. -/
def csr (s : State) (h n : Nat) : DWord := ctxOfThread s h (0x1000 + n)
def setCsr (s : State) (h n : Nat) (v : DWord) : State := setCtx s h (0x1000 + n) v

/-- A 64-bit word with bits [hi:lo] replaced. -/
def putBits64 (w : DWord) (hi lo v : Nat) : DWord :=
  BitVec.ofNat 64 (w.toNat - nbits w.toNat hi lo * 2 ^ lo + v % 2 ^ (hi + 1 - lo) * 2 ^ lo)

/-- Enter M-mode under mtvec (RISC-V privileged architecture; assumption 16, PRESUMED): mepc, mcause and mtval are written, the
interrupt enable and the mode are stacked in mstatus, and MDT is set. -/
def trapM (s : State) (h cause : Nat) (tval : DWord) : State :=
  let st := csr s h 0x300
  let st := putBits64 st 7 7 (nbits st.toNat 3 3)
  let st := putBits64 (putBits64 (putBits64 st 12 11 (privOf s h)) 3 3 0) 42 42 1
  let s := setCsr (setCsr (setCsr s h 0x341 (ctxOfThread s h 0)) h 0x342 (BitVec.ofNat 64 cause)) h 0x343 tval
  setCtx (setCtx (setCsr s h 0x300 st) h 1 3) h 0 (putBits64 (csr s h 0x305) 1 0 0)

/-- Enter S-mode under stvec (assumption 16, PRESUMED). -/
def trapS (s : State) (h cause : Nat) (tval : DWord) : State :=
  let st := csr s h 0x300
  let st := putBits64 st 5 5 (nbits st.toNat 1 1)
  let st := putBits64 (putBits64 st 8 8 (privOf s h)) 1 1 0
  let s := setCsr (setCsr (setCsr s h 0x141 (ctxOfThread s h 0)) h 0x142 (BitVec.ofNat 64 cause)) h 0x143 tval
  setCtx (setCtx (setCsr s h 0x300 st) h 1 1) h 0 (putBits64 (csr s h 0x105) 1 0 0)

/-- The trap is delegated to S-mode: medeleg has its bit and the thread is not in M-mode. -/
def delegated (s : State) (h cause : Nat) : Bool := privOf s h != 3 && (csr s h 0x302).getLsbD cause

/-- Park a thread (R396): it keeps what it holds, the FAULT item goes to endpoint 63, THREAD_FAULT is set. -/
def park (s : State) (h cause : Nat) (tval : DWord) : State :=
  let c := hartCore h
  let t := hartOf s h
  let w := faultItem s h 1 cause (ctxOfThread s h 0) tval (stagedWords t) t.held.length
  let s := modHart s h fun t => { t with st := 3, blocked := none }
  hwSet (deviceItem s c 63 w) (Reg.CORE_FAULT (c / 8) (c % 8)) 0 7 0

/-! ## Frames of items -/

/-- The handle an item of KIND FRAME carries. -/
def itemFrame (words : List DWord) : Option Nat :=
  if (words.headD 0).toNat / 2 ^ 60 = 1 then some ((words.getD 1 0).toNat / 2 ^ 32) else none

/-- The thread holds a FRAME item of that handle. -/
def holdsHandle (t : Thread) (h : Nat) : Bool := t.held.any fun x => itemFrame x.words == some h

/-- Dispose of a frame's handle: its inlet charge is released (R75, R384). -/
def dropHandle (s : State) (h : Nat) (f : CoreFrame) : State :=
  let s := { s with cores := { s.cores with frames := terase s.cores.frames h } }
  releaseInlet s f.mac f.cls f.cells f.pool

/-- A frame goes to broke from a core. -/
def brokeHandle (s : State) (c h reason : Nat) (f : CoreFrame) : State :=
  broke (dropHandle s h f) reason f.bytes { kind := 3, num := c }

/-- An item is discarded: a FRAME item's frame goes to broke with the reason, any other item is counted. -/
def discardItem (s : State) (c reason ctr : Nat) (words : List DWord) : State :=
  match itemFrame words with
  | none => count s ctr
  | some h =>
    match tget s.cores.frames h with
    | none => s
    | some f => brokeHandle s c h reason f

/-- The items of an endpoint of a core: those its threads hold, in receipt order and thread by thread, then those
queued. -/
def heldItems (k : Core) (p : Nat) : List HeldItem :=
  (List.range 8).flatMap fun t => (tgetD k.threads t {}).held.filter fun x => x.ep == p
def epItems (k : Core) (p : Nat) : List Item :=
  (heldItems k p).map (fun x => { words := x.words, via := x.via }) ++ tgetD k.eps p []

/-- Every item of a core, held or queued. -/
def coreItems (k : Core) : List Item := (List.range 64).flatMap (epItems k)

/-- Take away a core's waiting device items, counted. -/
def dropWaiting (s : State) (c ctr : Nat) : State :=
  let n := (s.cores.waiting.filter fun w => w.1 == c).length
  count { s with cores := { s.cores with waiting := s.cores.waiting.filter fun w => w.1 != c } } ctr n

/-- Discard everything a core holds and stop its threads; open and staged items vanish. -/
def clearCore (s : State) (c reason ctr : Nat) : State :=
  let s := (coreItems (coreOf s c)).foldl (fun s x => discardItem s c reason ctr x.words) s
  dropWaiting (modCore s c fun _ => {}) c ctr

/-- Redirections to a core end (R395, R399). -/
def endRedirect (s : State) (c : Nat) : State :=
  let drop := fun (k : Core) => if k.redirect = some c then { k with redirect := none } else k
  { s with cores := { s.cores with cores := tmap s.cores.cores fun _ k => drop k } }

/-! ## Clock-gated idle and its end (R501) -/

/-- A core's trace unit flushes its FIFO and writes LP_ENTER as its last record (R501). -/
def lpEnter (s : State) (c cause : Nat) : State :=
  if (srcOf s c).idle then s
  else
    let f := traceFlush s c
    let (cyc, t) := freeBytes f 1
    let t := tracePush t c (recHead 0x04 2 c 0 ++ toLe 4 cause ++ toLe 8 s.deviceTime.toNat ++ cyc ++ List.replicate 8 0)
    { modSrc t c fun x => { x with idle := true } with mem := f.mem }

/-- A core leaves clock-gated idle: LP_EXIT and a full SYNC record come first (R501). -/
def lpExit (s : State) (c : Nat) : State :=
  if (srcOf s c).idle then
    let s := modSrc s c fun t => { t with idle := false }
    let s := tracePush s c (recHead 0x05 1 c 0 ++ toLe 4 0 ++ toLe 8 s.deviceTime.toNat)
    if traceOn s c then
      let (sy, s) := syncRec s c
      modSrc (fifoPut s c [sy] (srcOf s c).lost) c fun t => { t with sinceSync := 0 }
    else s
  else s

/-- Every thread of a quire stops and what is in its endpoints is discarded (R395, R425): frames to broke with `reason`,
other items counted in `ctr`. Redirection to the quire's cores ends. `cause` is the trace's power-gating cause. -/
def clearQuire (s : State) (q reason ctr cause : Nat) : State :=
  let s := (List.range 8).foldl (fun s i =>
    let c := 8 * q + i
    let t := lpEnter s c cause
    { endRedirect (clearCore t c reason ctr) c with mem := t.mem }) s
  setFld s (Reg.QUIRE_STATUS q) 2 0 0

/-! ## Sending items (R387 to R390) -/

/-- The item a thread sends (R381, R387): the header from the device, AUX from the first word; it is a FRAME item where it
has three words and its word 1 carries a handle the thread holds, and then AUX is the frame's length. -/
def sentItem (s : State) (h : Nat) (ws : List DWord) : List DWord :=
  let frame := if ws.length = 3 && holdsHandle (hartOf s h) ((ws.getD 1 0).toNat / 2 ^ 32) then
      tget s.cores.frames ((ws.getD 1 0).toNat / 2 ^ 32) else none
  match frame with
  | some f => itemHeader 1 3 0 (coreSrc h) f.bytes.length :: ws.drop 1
  | none => itemHeader 0 ws.length 0 (coreSrc h) ((ws.headD 0).toNat % 2 ^ 32) :: ws.drop 1

/-- An item is discarded under R389: counted, and nothing else. -/
def noTarget (s : State) : Delivery × State := (.done, count s (Reg.CHN_NOTARGET))

/-- An item to a core endpoint (R389, R390, R424). -/
def sendCore (s : State) (h target : Nat) (ws : List DWord) : Delivery × State :=
  let c := hartCore h
  let d := nbits target 8 6 * 8 + nbits target 5 3
  let p := nbits target 21 16
  let bad := fun (s : State) (reason : Nat) =>
    let s := modHart s h fun t => { t with noTarget := true }
    (Delivery.done, if reason = 0x09 then discardItem s c 0x09 (Reg.DRY_CLOSED_DROP) ws
                    else discardItem s c 0x0D (Reg.CHN_NOTARGET) ws)
  if 62 ≤ p ∧ d ≠ c then bad s 0x0D
  else match putItem s d p ws with
    | (.refused r, t) => bad t r
    | x => x

/-- Bytes 0 to 7 and FLAGS of the completion of a frame a core delivers: the timestamp its item carries, or a hash that
the spec does not state. -/
def coreMeta (v : DWord) (f : CoreFrame) (ws : List DWord) (q : Queue) : List Byte × Nat :=
  let w1 := (ws.getD 1 0).toNat
  let w2 := (ws.getD 2 0).toNat
  let fl := nbits w1 8 8 * 2 + nbits w1 9 9 * 4
  if q.rxMeta = 1 then (toLe 4 v.toNat ++ toLe 1 f.mac ++ toLe 1 f.cls ++ [0, 0], fl + 8)
  else (toLe 6 (w2 / 65536) ++ toLe 2 w2, fl)

/-- An item that disposes of the frame it carries (R389, R390). -/
def sendFrame (s : State) (h target hd : Nat) (f : CoreFrame) (ws : List DWord) : Delivery × State :=
  let c := hartCore h
  match target / 2 ^ 28 with
  | 1 =>
    let m := nbits target 2 0
    if macCount s.variant ≤ m then (.done, brokeHandle s c hd 0x0D f)
    else if (portOf s m).waiting.any fun x => x.src == { kind := 3, num := c } then (.waits, s)
    else (.done, sendTo (dropHandle s hd f) m { bytes := withFcs f.bytes, cls := nbits target 6 4, src := { kind := 3, num := c } })
  | 2 =>
    let (v, s) := free s
    let s := dropHandle s hd f
    match deliverHost s (nbits target 11 0) (some (nbits target 21 12)) 0 f.bytes (coreMeta v f ws) true with
    | (.refused r, t) => (.done, broke t r f.bytes { kind := 3, num := c } (nbits target 11 0))
    | x => x
  | 3 => (.done, dropHandle s hd f)
  | 4 => if 0x80 ≤ target % 256 then (.done, brokeHandle s c hd (target % 256) f) else noTarget s
  | _ => noTarget s

/-- Send one finished item. A second disposal of a handle the thread holds is discarded under R390, as CHSTAT says. -/
def sendItem (s : State) (h target : Nat) (ws : List DWord) : Delivery × State :=
  let ws := sentItem s h ws
  if target / 2 ^ 28 = 0 then sendCore s h target ws
  else
    match itemFrame ws with
    | none =>
      noTarget (if ws.length = 3 && holdsHandle (hartOf s h) ((ws.getD 1 0).toNat / 2 ^ 32) then
        modHart s h fun t => { t with noTarget := true } else s)
    | some hd =>
      match tget s.cores.frames hd with
      | none => noTarget s
      | some f => sendFrame s h target hd f ws

/-- Send a thread's staged items in order; true once none is left. -/
def sendStaged (s : State) (h : Nat) : List (Nat × List DWord) → Bool × State
  | [] => (true, modHart s h fun t => { t with staged := [] })
  | x :: rest =>
    match sendItem s h x.1 x.2 with
    | (.waits, _) => (false, modHart s h fun t => { t with staged := x :: rest })
    | (_, t) => sendStaged t h rest

/-- ch.ack's work: the staged items go out, then everything held is let go. -/
def ackWork (s : State) (h : Nat) : Bool × State :=
  match sendStaged s h (hartOf s h).staged with
  | (true, t) => (true, modHart t h fun x => { x with held := [] })
  | (false, t) => (false, t)

/-! ## Receiving items (R385, R386) -/

/-- Threads of the core blocked in ch.recv on an endpoint. -/
def recvWaiters (s : State) (c p : Nat) : List Nat :=
  (List.range 8).filter fun t =>
    match (threadOf s c t).blocked with
    | some (.recv _ e) => e == p && (threadOf s c t).st == 2
    | _ => false

/-- An unread word of an item the thread holds from that endpoint. -/
def unread (t : Thread) (p : Nat) : Option HeldItem := t.held.find? fun x => x.ep == p && x.read < x.words.length

/-- Take the item at place `i` of an endpoint for a thread: its first word. -/
def takeItem (s : State) (h p i : Nat) : Option (DWord × State) :=
  let c := hartCore h
  match (epQueue s c p)[i]? with
  | none => none
  | some x =>
    let s := setEp s c p ((epQueue s c p).eraseIdx i)
    some (x.words.headD 0,
      modHart s h fun t => { t with held := t.held ++ [{ ep := p, words := x.words, read := 1, via := x.via }] })

/-- The next word of an endpoint for a thread that is not blocked on it: of the item it is reading, or the first of an
item that no blocked thread was given (R386, R391). -/
def recvWord (s : State) (h p : Nat) : Option (DWord × State) :=
  match unread (hartOf s h) p with
  | some x =>
    some (x.words.getD x.read 0,
      modHart s h fun t => { t with held := t.held.map fun y => if y = x then { y with read := y.read + 1 } else y })
  | none => takeItem s h p (recvWaiters s (hartCore h) p).length

/-- The endpoint holds a word for the thread. -/
def epReady (s : State) (h p : Nat) : Bool :=
  (unread (hartOf s h) p).isSome || !(epQueue s (hartCore h) p).isEmpty

/-- The lowest endpoint of a mask that holds a word. -/
def lowestReady (s : State) (h : Nat) (mask : DWord) : Option Nat :=
  (List.range 64).find? fun p => mask.getLsbD p && epReady s h p

/-- The thread may read the endpoint (R378). -/
def mayRead (h p : Nat) : Bool := (p != 62 || hartThread h == 6) && (p != 63 || hartThread h == 7)

/-- A thread blocks (R391). -/
def block (s : State) (h : Nat) (b : Block) : State :=
  modHart s h fun t => { t with st := 2, blocked := some b, since := s.deviceTime.toNat }

/-! ## Core failure (R399) -/

/-- Move a failed core's items to the fallback core, endpoint by endpoint, those that came from another core by its
redirection left out; the number moved. -/
def moveItems (s : State) (c d : Nat) : Nat × State :=
  (List.range 62).foldl (fun p e =>
    let l := (epItems (coreOf p.2 c) e).filter fun x => x.via.isNone
    (p.1 + l.length, setEp p.2 d e (epQueue p.2 d e ++ l.map fun x => { x with via := some c }))) (0, s)

/-- The fallback core a failed core uses: enabled, another one, RUNNING and not failed. -/
def fallbackOf (s : State) (c : Nat) : Option Nat :=
  let r := Reg.CORE_FALLBACK (c / 8) (c % 8)
  let d := fld s r 5 3 * 8 + fld s r 2 0
  if flag s r 31 && d != c && coreTakes s d then some d else none

/-- A core fails. -/
def failCore (s : State) (c cause : Nat) : State :=
  let k := coreOf s c
  let staged := (k.threads.map fun t => stagedWords t.2).sum
  let st := Reg.QUIRE_STATUS (c / 8)
  let s := setFld s st 31 24 (fld s st 31 24 ||| 2 ^ (c % 8))
  let s := endRedirect s c
  let fb := fallbackOf s c
  let (n, s) := match fb with
    | some d =>
      let left := (List.range 64).flatMap fun p => (epItems k p).filter fun x => 62 ≤ p || x.via.isSome
      let (n, s) := moveItems s c d
      (n, left.foldl (fun s x => discardItem s c 0x0D (Reg.CHN_NOTARGET) x.words) s)
    | none => (0, (coreItems k).foldl (fun s x => discardItem s c 0x0D (Reg.CHN_NOTARGET) x.words) s)
  let s := dropWaiting (modCore s c fun _ => { redirect := fb }) c (Reg.CHN_NOTARGET)
  let w := faultItem s (8 * c + 7) 2 cause 0 0 staged n
  let s := match fb with | some d => deviceItem s d 63 w | none => s
  let s := hwSet s (Reg.CORE_FAULT (c / 8) (c % 8)) 1 15 8
  raiseTrig (logErr s 0x0701 2 (0x700 + c / 8) (w.map BitVec.toNat)) 4

/-- CORE_FAILURE (R399). -/
def execCoreFailure (core cause : Nat) (s : State) : Host.Outcome State Fault Refusal :=
  within (core < 8 * quireCount s.variant && 1 ≤ cause && cause ≤ 4) (live s fun s =>
    if coreTakes s core then failCore s core cause else s)

/-- A BRANCH record of a thread at a trap (R499): the pc and the cause. What the thread retired and took since its last
record, which no command shows, is free. -/
def branchRec (s : State) (h cause : Nat) : State :=
  if traceOn s (hartCore h) then
    let (v, s) := free s
    let n := v.toNat % 32
    tracePush s (hartCore h) (recHead 0x02 2 (hartCore h) (hartThread h) ++ toLe 2 (v.toNat / 32 % 65536) ++ toLe 2 n ++
      toLe 4 (v.toNat / 2 ^ 21 % 2 ^ n) ++ List.replicate 4 0 ++ toLe 8 (ctxOfThread s h 0).toNat ++ toLe 2 cause ++
      List.replicate 6 0)
  else s

/-- A PC_ENTER record where a thread's privilege is no longer `old` (R499). -/
def enterRec (s : State) (h old : Nat) : State :=
  if privOf s h = old then s
  else tracePush s (hartCore h) (recHead 0x03 2 (hartCore h) (hartThread h) ++ toLe 4 (privOf s h) ++
    toLe 8 (ctxOfThread s h 0).toNat ++ List.replicate 16 0)

/-- A trap of a thread (R396): delegated, parked, or taken by TH_7 under its own mtvec; a double trap of TH_7 fails the
core. Its core's trace has a BRANCH record, and a PC_ENTER record where the privilege changes (R499). -/
def trap (s : State) (h cause : Nat) (tval : DWord) : State :=
  let old := privOf s h
  let s := branchRec s h cause
  if delegated s h cause then enterRec (trapS s h cause tval) h old
  else if hartThread h = 7 then
    if (csr s h 0x300).getLsbD 42 then failCore s (hartCore h) 3 else enterRec (trapM s h cause tval) h old
  else park s h cause tval

/-- A trap whose mtval the spec does not state. -/
def trapFree (s : State) (h cause : Nat) : State :=
  let (v, s) := free s
  trap s h cause v

/-- THREAD_FAULT (R396): a trap of a running thread. -/
def execThreadFault (h cause : Nat) (tval : DWord) (s : State) : Host.Outcome State Fault Refusal :=
  within (hartOk s h) (live s fun s => if hartRuns s h then trap s h cause tval else s)

/-! ## The Xfzchan instructions (R385) -/

/-- An Xfzchan instruction of a hart, whose registers exist, runs while its thread is RUNNING. -/
def onHart (s : State) (h : Nat) (regsOk : Bool) (f : State → State) : Host.Outcome State Fault Refusal :=
  within (regsOk && hartOk s h) (live s fun s => if hartRuns s h then f s else s)

/-- CH_RECV (R386). -/
def execChRecv (h r rs1 : Nat) (s : State) : Host.Outcome State Fault Refusal :=
  onHart s h (r < 32 && rs1 < 32) fun s =>
    let p := (xreg s h rs1).toNat % 64
    if !mayRead h p then trapFree s h 2
    else match recvWord s h p with
      | some (w, t) => nextPc (setXreg t h r w) h
      | none => block s h (.recv r p)

/-- CH_TRYRECV (R385). -/
def execChTryrecv (h r rs1 : Nat) (s : State) : Host.Outcome State Fault Refusal :=
  onHart s h (r < 32 && rs1 < 32) fun s =>
    let p := (xreg s h rs1).toNat % 64
    if !mayRead h p then trapFree s h 2
    else
      let (w, e, t) := match recvWord s h p with
        | some (w, t) => (w, false, t)
        | none => (0, true, s)
      nextPc (setXreg (modHart t h fun x => { x with empty := e }) h r w) h

/-- The open item of a thread for a target, with one word more. -/
def openWith (t : Thread) (target : Nat) (w : DWord) : List DWord :=
  ((t.opens.find? fun x => x.1 == target).map Prod.snd).getD [] ++ [w]
def dropOpen (s : State) (h target : Nat) : State :=
  modHart s h fun t => { t with opens := t.opens.filter fun x => x.1 != target }

/-- CH_SEND (R387). -/
def execChSend (h rs1 rs2 : Nat) (s : State) : Host.Outcome State Fault Refusal :=
  onHart s h (rs1 < 32 && rs2 < 32) fun s =>
    let target := (xreg s h rs1).toNat % 2 ^ 32
    let ws := openWith (hartOf s h) target (xreg s h rs2)
    if 32 < ws.length then trapFree (dropOpen s h target) h 24
    else nextPc (modHart (dropOpen s h target) h fun t => { t with opens := t.opens ++ [(target, ws)] }) h

/-- CH_SENDL (R388). -/
def execChSendl (h rs1 rs2 : Nat) (s : State) : Host.Outcome State Fault Refusal :=
  onHart s h (rs1 < 32 && rs2 < 32) fun s =>
    let target := (xreg s h rs1).toNat % 2 ^ 32
    let t := hartOf s h
    let ws := openWith t target (xreg s h rs2)
    if 32 < ws.length then trapFree (dropOpen s h target) h 24
    else if !t.held.isEmpty then
      if 256 < stagedWords t + ws.length then trapFree s h 25
      else nextPc (modHart (dropOpen s h target) h fun t => { t with staged := t.staged ++ [(target, ws)], noTarget := false }) h
    else
      let s := modHart (dropOpen s h target) h fun t => { t with noTarget := false }
      match sendItem s h target ws with
      | (.waits, _) => block s h (.send target ws)
      | (_, t) => nextPc t h

/-- CH_ACK (R388). -/
def execChAck (h : Nat) (s : State) : Host.Outcome State Fault Refusal :=
  onHart s h (true) fun s =>
    match ackWork s h with
    | (true, t) => nextPc t h
    | (false, t) => block t h .ack

/-- CH_WAIT (R385). -/
def execChWait (h r rs1 : Nat) (s : State) : Host.Outcome State Fault Refusal :=
  onHart s h (r < 32 && rs1 < 32) fun s =>
    let m := xreg s h rs1
    match lowestReady s h m with
    | some p => nextPc (setXreg s h r (BitVec.ofNat 64 p)) h
    | none => block s h (.wait r m)

/-- CH_REPLAY (R398): M-mode on TH_7 only, and only for a PARKED or STOPPED thread of its own core. -/
def execChReplay (h rs1 rs2 : Nat) (s : State) : Host.Outcome State Fault Refusal :=
  onHart s h (rs1 < 32 && rs2 < 32) fun s =>
    let c := hartCore h
    let v := (xreg s h rs1).toNat % 8
    let p := (xreg s h rs2).toNat % 64
    let t := threadOf s c v
    if hartThread h ≠ 7 ∨ privOf s h ≠ 3 ∨ !(t.st == 0 || t.st == 3) then trapFree s h 2
    else
      let s := setEp s c p (t.held.map (fun x => { words := x.words, via := x.via }) ++ epQueue s c p)
      nextPc (modThread s c v fun t => { t with held := [], staged := [] }) h

/-! ## Delivery and wake (R382, R391) -/

/-- The core and endpoint a blocked sender waits for. -/
def sendsTo (s : State) (t : Thread) : Option (Nat × Nat) :=
  match t.blocked with
  | some (.send target _) =>
    if target / 2 ^ 28 = 0 then
      let p := nbits target 21 16
      (resolveCore s (nbits target 8 6 * 8 + nbits target 5 3) p).1.map fun d => (d, p)
    else none
  | _ => none

/-- The hart blocked longest in a ch.sendl to an endpoint. -/
def firstSender (s : State) (c p : Nat) : Option Nat :=
  (List.range 512).foldl (fun m h =>
    if (hartOf s h).st = 2 ∧ sendsTo s (hartOf s h) = some (c, p) then
      match m with
      | none => some h
      | some k => if (hartOf s h).since < (hartOf s k).since then some h else some k
    else m) none

/-- CHANNEL_ITEM_DELIVER (R382): an item that waited for a slot of the endpoint is placed: one of the device first, then
that of the thread blocked longest. -/
def execChannelItemDeliver (c p : Nat) (s : State) : Host.Outcome State Fault Refusal :=
  within (c < 8 * quireCount s.variant && p < 64) (live s fun s =>
    if !coreTakes s c || 64 ≤ (epQueue s c p).length then s
    else
      match s.cores.waiting.findIdx? fun w => w.1 == c && w.2.1 == p with
      | some i =>
        let w := (s.cores.waiting.getD i (c, p, [])).2.2
        setEp { s with cores := { s.cores with waiting := s.cores.waiting.eraseIdx i } } c p
          (epQueue s c p ++ [{ words := w }])
      | none =>
        match firstSender s c p with
        | none => s
        | some h =>
          match (hartOf s h).blocked with
          | some (.send target ws) =>
            match sendItem s h target ws with
            | (.waits, _) => s
            | (_, t) => modHart t h fun x => { x with blocked := none }
          | _ => s)

/-- Among the threads blocked on an endpoint none comes before this one: by class, then by the time of blocking
(R391). -/
def firstWaiter (s : State) (h p : Nat) : Bool :=
  (recvWaiters s (hartCore h) p).all fun t =>
    let o := 8 * hartCore h + t
    threadClass s h < threadClass s o ||
      (threadClass s h == threadClass s o && (hartOf s h).since ≤ (hartOf s o).since)

/-- What a blocked thread's release does, if its condition holds (R391). -/
def release (s : State) (h : Nat) : Option State :=
  match (hartOf s h).blocked with
  | none => some s
  | some (.recv r p) =>
    if firstWaiter s h p then (takeItem s h p 0).map fun x => setXreg x.2 h r x.1 else none
  | some (.wait r m) => (lowestReady s h m).map fun p => setXreg s h r (BitVec.ofNat 64 p)
  | some (.send target ws) =>
    match sendItem s h target ws with
    | (.waits, _) => none
    | (_, t) => some t
  | some .ack =>
    match ackWork s h with
    | (true, t) => some t
    | (false, _) => none

/-- THREAD_WAKE (R391). -/
def execThreadWake (h : Nat) (s : State) : Host.Outcome State Fault Refusal :=
  within (hartOk s h) (live s fun s =>
    if coreTakes s (hartCore h) && (hartOf s h).st == 2 then
      match release s h with
      | none => s
      | some t => nextPc (modHart (lpExit t (hartCore h)) h fun x => { x with st := 1, blocked := none }) h
    else s)

/-! ## Timer (R392) -/

/-- The clock that TH_6 compares, as short time and fraction. -/
def timerClock (s : State) (h : Nat) : Nat :=
  let cfg := (csr s h 0x5C1).toNat
  (if nbits cfg 2 2 = 1 then phcNow s (cfg % 4) else s.deviceTime.toNat * halfNs) % 2 ^ 64

/-- TIMER_CMP_MATCH (R392): all ones is no compare value. -/
def execTimerCmpMatch (core : Nat) (s : State) : Host.Outcome State Fault Refusal :=
  within (core < 8 * quireCount s.variant) (live s fun s =>
    let h := 8 * core + 6
    let cmp := csr s h 0x5C0
    let now := timerClock s h
    if coreTakes s core && cmp != 0xFFFFFFFFFFFFFFFF && 0 ≤ signed 64 (toBits 64 ((now : Int) - cmp.toNat)) then
      let (aux, s) := free s
      let s := setCsr s h 0x5C0 0xFFFFFFFFFFFFFFFF
      deviceItem s core 62 [itemHeader 4 2 3 0 (aux.toNat % 2 ^ 32), BitVec.ofNat 64 now]
    else s)

/-! ## Contexts of other threads (R394) -/

/-- CHSTAT of a thread. -/
def chstat (t : Thread) : DWord :=
  BitVec.ofNat 64 (ceilDiv (stagedWords t) 4 % 256 * 65536 + min t.held.length 255 * 256 +
    t.noTarget.toNat * 2 + t.empty.toNat)

/-- CHREADY of a core. -/
def chready (s : State) (c : Nat) : DWord :=
  BitVec.ofNat 64 (((List.range 64).map fun p => if (epQueue s c p).isEmpty then 0 else 2 ^ p).sum)

/-- The item exists (THREAD_CTX_SEL). -/
def ctxExists (i : Nat) : Bool :=
  i ≤ 0x21 || (0x40 ≤ i && i ≤ 0x5F) || (0x100 ≤ i && i ≤ 0x17F) || (0x1000 ≤ i && i ≤ 0x1FFF)

/-- A context item as it reads. -/
def ctxRead (s : State) (h i : Nat) : DWord :=
  if !ctxExists i then 0
  else if i = 0x1CC0 then chstat (hartOf s h)
  else if i = 0x1CC1 then chready s (hartCore h)
  else if i = 0x17C3 then BitVec.ofNat 64 (threadStates s (hartCore h))
  else if i = 0x1C01 then s.deviceTime
  else if i = 0x1F14 then BitVec.ofNat 64 h
  else ctxOfThread s h i

/-- A write of a context item: items the device computes, and reserved bits, stay; a privilege that is none is not
taken. -/
def ctxWrite (s : State) (h i : Nat) (v : DWord) : State :=
  if !ctxExists i || [0x1CC0, 0x1CC1, 0x17C1, 0x17C2, 0x17C3, 0x1C01, 0x1F14].contains i then s
  else if i = 1 then (if v.toNat % 4 = 2 then s else setCtx s h 1 (BitVec.ofNat 64 (v.toNat % 4)))
  else if i = 0x21 then setCtx s h i (BitVec.ofNat 64 (v.toNat % 4))
  else if i = 0x15C1 then setCtx s h i (BitVec.ofNat 64 (v.toNat % 8))
  else if i = 0x17C0 then setCtx s h i (v &&& 0xFFFF0007)
  else setCtx s h i v

/-- THREAD_CTX_ACCESS (R394). -/
def execThreadCtxAccess (h r : Nat) (w : Option DWord) (s : State) : Host.Outcome State Fault Refusal :=
  onHart s h (r < 32) fun s =>
    let sel := (csr s h 0x7C0).toNat
    let o := 8 * hartCore h + sel % 8
    let st := (hartOf s o).st
    if privOf s h ≠ 3 ∨ !(st == 0 || st == 3) then trapFree s h 2
    else
      let v := ctxRead s o (nbits sel 31 16)
      let s := match w with | some x => enterRec (ctxWrite s o (nbits sel 31 16) x) o (privOf s o) | none => s
      nextPc (setXreg s h r v) h

/-- Release one thread (R394): STOPPED or PARKED. -/
def goThread (s : State) (h : Nat) : State :=
  let st := (hartOf s h).st
  if st = 0 ∨ st = 3 then modHart s h fun t => { t with st := 1, blocked := none } else s

/-- THREAD_GO (R394). -/
def execThreadGo (h : Nat) (mask : DWord) (s : State) : Host.Outcome State Fault Refusal :=
  onHart s h (true) fun s =>
    if privOf s h ≠ 3 then trapFree s h 2
    else nextPc ((List.range 8).foldl (fun s t =>
      if mask.getLsbD t && t != hartThread h then goThread s (8 * hartCore h + t) else s) s) h

/-! ## Quires (R393, R395) -/

/-- The quire of slot 0 exists on the variant. -/
def quireObj (c : Ctx) (s : State) : Bool := 8 ≤ slot c.params 0 || slot c.params 0 < quireCount s.variant

/-- CORE_IMAGE_LOAD: quire mask, image offset, length, bytes; every byte goes to the same offset of each quire's image
region (R415). -/
def imageLoadBody : OpBody where
  lenOk := slotsThen 3 2 1
  objs c s := 256 ≤ slot c.params 0 || slot c.params 0 < 2 ^ quireCount s.variant
  run c s :=
    let m := slot c.params 0
    let off := slot c.params 1
    let n := slot c.params 2
    checked [(0, m < 256), (8, off < 0x4000000), (16, off + n ≤ 0x4000000)] s fun _ =>
      grant ((List.range 8).foldl (fun s q =>
        if m / 2 ^ q % 2 = 1 then hbmWrite s 0 (0x4000000 * q + off) (c.params.drop 24) else s) s)

/-- CORE_IMAGE_LOAD (R393). -/
def execCoreImageLoad (pf : Nat) (buf : ParamBuf) (s : State) : Host.Outcome State Fault Refusal :=
  joryenMem 0x0700 imageLoadBody pf buf s

/-- An entry address lies in the image region or in HBM (R376, R393). -/
def quireEntryOk (s : State) (a : Nat) : Bool :=
  (0x80000000 ≤ a && a < 0x84000000) || (0x1000000000 ≤ a && a < 0x1861C46800) ||
  (hbmCount s.variant == 2 && 0x2000000000 ≤ a && a < 0x2861C46800)

/-- QUIRE_START: quire and entry address; `pass` says which cores pass the BIST. -/
def quireStartBody (pass : Byte) : OpBody where
  lenOk := slots 2
  objs := quireObj
  run c s :=
    let q := slot c.params 0
    let entry := slot c.params 1
    let st := Reg.QUIRE_STATUS q
    checked [(0, q < 8 && quireState s q == 0), (8, quireEntryOk s entry)] s fun _ =>
      if !domOpen s q then .finish (refuse stNoResource) s
      else
        let s := setFld s st 31 24 (255 - pass.toNat)
        if pass = 0 then .finish (refuse stNoResource) s
        else
          let s := { s with cores := { s.cores with
            redirected := s.cores.redirected.filter (· != q)
            cores := (List.range 8).foldl (fun t i =>
              tset t (8 * q + i) (if pass.getLsbD i then
                  { threads := [(0, { st := 1, ctx := [(0, BitVec.ofNat 64 entry), (1, 3)] })] } else {})) s.cores.cores } }
          let s := (List.range 8).foldl (fun s i => if pass.getLsbD i then lpExit s (8 * q + i) else s) s
          grant (setFld s st 2 0 2)

/-- QUIRE_START (R393). -/
def execQuireStart (pf : Nat) (buf : ParamBuf) (pass : Byte) (s : State) : Host.Outcome State Fault Refusal :=
  joryen 0x0701 (quireStartBody pass) pf buf s

/-- QUIRE_STOP: quire. -/
def quireStopBody : OpBody where
  lenOk := slots 1
  objs := quireObj
  run c s :=
    let q := slot c.params 0
    checked [(0, q < 8)] s fun _ => grant (clearQuire s q 0x0D (Reg.CHN_NOTARGET) 3)

/-- QUIRE_STOP (R395). -/
def execQuireStop (pf : Nat) (buf : ParamBuf) (s : State) : Host.Outcome State Fault Refusal :=
  joryenMem 0x0702 quireStopBody pf buf s

/-- QUIRE_QUERY: 256 bytes whose content the spec does not state. -/
def quireQueryBody : OpBody where
  lenOk := slots 1
  objs := quireObj
  run c s :=
    checked [(0, slot c.params 0 < 8)] s fun _ =>
      let (b, s) := freeBytes s 32
      grant s [] b

/-- QUIRE_QUERY (R373). -/
def execQuireQuery (pf : Nat) (buf : ParamBuf) (s : State) : Host.Outcome State Fault Refusal :=
  joryen 0x0703 quireQueryBody pf buf s

end Sys2Proof.Machine
end

