-- ==== Sys2Proof/Machine/Dryer.lean ====
section
/-! DEFINITION. The dryer (R420 to R444): power domains, the energy budget, the steps that hold to the cap, dispatch,
ramps, heat, and the caliper's voltage loops with their stretching. -/

namespace Sys2Proof.Machine

/-! ## Power domains (R421 to R426) -/

/-- The variant has the domain's unit. -/
def domPresent (s : State) (d : Nat) : Bool :=
  d < 29 && match s.variant with | .ax => true | .bx => !(d == 6 || d == 7 || d == 26 || d == 28)

/-- The lane group that a pipe-pair or lane-group domain serves (R42). -/
def domGroup (d : Nat) : Nat := if 25 ≤ d then d - 25 else (d - 21) % 2

/-- Some port of a lane group is enabled. -/
def groupEn (s : State) (lg : Nat) : Bool := (List.range 4).any fun i => portEn s (4 * lg + i)

/-- The lane holds an inline role of an enabled port (R261). -/
def laneNeeded (s : State) (n : Nat) : Bool :=
  let r := laneRoleOf s n
  laneState s n == 3 && r < 8 && (List.range (macCount s.variant)).any fun m =>
    portEn s m && (laneRole s (4 ≤ r) m == r || (groupOf m == r / 2 % 2 && lanePairJoined s (r / 2)))

/-- The close is permitted (R421, R261). -/
def mayClose (s : State) (d : Nat) : Bool :=
  if d < 8 then true
  else if d < 17 then !(laneNeeded s (d - 8)) && !(d == 16 && laneState s 8 == 2)
  else if d < 21 then true
  else if d < 27 then !(groupEn s (domGroup d))
  else if d = 27 then s.grade.cur == .standby
  else true

/-- The fallback of a quire is usable (R423): not enabled, or another quire that is RUNNING. -/
def fallbackOk (s : State) (d en q : Nat) : Bool := !(d < 8) || en == 0 || (q != d && quireState s q == 2)

/-- The domain may open: its unit exists, and it is not one that R422 holds CLOSED. -/
def mayOpen (s : State) (d : Nat) : Bool := domPresent s d && !(21 ≤ d && d < 27 && shapeOf s (domGroup d) == 0)

/-- A running DRY_DOMAIN_SET whose domain has got where it should completes. -/
def domReply (s : State) (d : Nat) (opened : Bool) : State :=
  if s.dry.domCmd = some (d, opened) then settleAny { s with dry := { s.dry with domCmd := none } } 0x0901 ok else s

/-- The dryer has nothing more to do with a domain: it is the manager's. -/
def takeOver (s : State) (d : Nat) : State :=
  setFlag { s with dry := { s.dry with steps := s.dry.steps.filter (· != .domain d) } } (Reg.DRY_DOMAIN_STATE d) 3 false

/-- DRY_DOMAIN_SET: domain, 0 open or 1 close, fallback quire or none. A fallback given is stored in DRY_DOMAIN_CFG. A
domain or a quire that BX has not is an absent object (R3). -/
def domainSetBody : OpBody where
  lenOk := slots 3
  objs c s := (29 ≤ slot c.params 0 || domPresent s (slot c.params 0)) &&
    (match slotOpt c.params 2 with
     | some q => 8 ≤ q || q < quireCount s.variant
     | none => true)
  run c s :=
    let d := slot c.params 0
    let cl := slot c.params 1
    let cfg := Reg.DRY_DOMAIN_CFG d
    let (en, fq) := match slotOpt c.params 2 with
      | some q => (1, q)
      | none => (fld s cfg 11 11, fld s cfg 10 8)
    checked [(0, d < 29 && (if cl = 0 then mayOpen s d else domPresent s d && mayClose s d)), (8, cl < 2),
        (16, cl == 0 || !(d < 8) || (fq < 8 && fallbackOk s d en fq))] s fun _ =>
      let s := takeOver s d
      let wait := fun (s : State) => CmdRes.wait true { s with dry := { s.dry with domCmd := some (d, cl == 0) } }
      if cl = 0 then
        let s := { s with dry := { s.dry with toClose := s.dry.toClose.filter (· != d) } }
        if domOpen s d then grant s else wait (startOpen s d)
      else
        let s := if d < 8 then setFld (setFld s cfg 11 11 en) cfg 10 8 fq else s
        let s := { s with dry := { s.dry with reopen := s.dry.reopen.filter (· != d) } }
        if domState s d = 2 then grant s
        else if domState s d = 1 then wait s
        else wait { s with dry := { s.dry with toClose := insNat d s.dry.toClose } }

/-- DRY_DOMAIN_SET (R423). -/
def execDryDomainSet (pf : Nat) (buf : ParamBuf) (s : State) : Host.Outcome State Fault Refusal :=
  joryen 0x0901 domainSetBody pf buf s

/-- Jobs on the lane or engine of a domain. -/
def domJobs (s : State) (d : Nat) : List (Nat × Job) :=
  if d < 17 then s.cph.jobs.filter fun p => p.2.lane == some (d - 8) && !isTransform p.2.block
  else s.cph.jobs.filter fun p => p.2.lane == some (d - 17) && isTransform p.2.block

/-- No thread of a core runs, and it holds no item and has sent none that is still staged. -/
def coreEmpty (s : State) (c : Nat) : Bool :=
  (coreItems (coreOf s c)).isEmpty && !(s.cores.waiting.any fun w => w.1 == c) &&
  (coreOf s c).threads.all fun t => t.2.st != 1 && t.2.staged.isEmpty

/-- No work is outstanding in a domain (R425). -/
def domEmpty (s : State) (d : Nat) : Bool :=
  if d < 8 then (List.range 8).all fun i => coreEmpty s (8 * d + i)
  else if d < 17 then (domJobs s d).isEmpty && laneLoad s (d - 8) == 0
  else if d < 21 then (domJobs s d).isEmpty
  else if d < 25 then s.pkt.inlet.all fun r => r.2.all fun f =>
    f.pipe != some (2 * (d - 21)) && f.pipe != some (2 * (d - 21) + 1)
  else true

/-- DOMAIN_CLOSE_START (R424): new work is steered away from this cycle on; a quire with a fallback redirects. One the
dryer means to close on its own must still be idle. -/
def execDomainCloseStart (d : Nat) (s : State) : Host.Outcome State Fault Refusal :=
  within (d < 29) (live s fun s =>
    if s.dry.toClose.contains d && domOpen s d then
      let s := { s with dry := { s.dry with toClose := s.dry.toClose.filter (· != d) } }
      let auto := s.dry.steps.contains (.domain d)
      if auto && !domEmpty s d then { s with dry := { s.dry with steps := s.dry.steps.filter (· != .domain d) } }
      else
        let s := setFlag (setDom s d 1) (Reg.DRY_DOMAIN_STATE d) 3 auto
        if d < 8 && flag s (Reg.DRY_DOMAIN_CFG d) 11 then
          { s with cores := { s.cores with redirected := insNat d s.cores.redirected } }
        else s
    else s)

/-- The drain limit of a closing domain expires (R425): what remains is disposed of. -/
def disposeDomain (s : State) (d : Nat) : State :=
  if d < 8 then clearQuire s d 0x09 (Reg.DRY_CLOSED_DROP) 2
  else if d < 21 then
    let t := (domJobs s d).foldl (fun s p => finishJob s p.1 p.2 0x08 0 0) s
    let t := if d < 17 then (t.cph.frames.filter fun f => f.lane == some (d - 8)).foldl (fun s f => brokeLane s f 0x09) t else t
    { t with mem := s.mem }
  else s

/-- DOMAIN_DRAIN_LIMIT (R425). -/
def execDomainDrainLimit (d : Nat) (s : State) : Host.Outcome State Fault Refusal :=
  within (d < 29) (liveMem s fun s => if domState s d = 1 then disposeDomain s d else s)

/-- DOMAIN_CLOSED (R425): a closing domain is empty and loses its power; a quire is OFF, a stack in self-refresh. A
DRY_DOMAIN_SET that waits to open it goes on (R423). -/
def execDomainClosed (d : Nat) (s : State) : Host.Outcome State Fault Refusal :=
  within (d < 29) (liveMem s fun s =>
    if domState s d = 1 && domEmpty s d then
      let q := if d < 8 then clearQuire s d 0x09 (Reg.DRY_CLOSED_DROP) 2 else s
      let s := if 27 ≤ d then setFlag q (Reg.HBM_STATUS (d - 27)) 3 true else q
      let s := domReply (setDom s d 2) d false
      let t := if s.dry.reopen.contains d then
          setDom { s with dry := { s.dry with reopen := s.dry.reopen.filter (· != d) } } d 3
        else s
      { t with mem := q.mem }
    else s)

/-- DOMAIN_OPEN_DONE (R421, R426): a lane that fails its known-answer test is a failed lane. -/
def execDomainOpenDone (d : Nat) (pass : Bool) (s : State) : Host.Outcome State Fault Refusal :=
  within (d < 29) (live s fun s =>
    if domState s d = 3 then
      let s := setFlag (setDom s d 0) (Reg.DRY_DOMAIN_STATE d) 3 false
      let s := if 8 ≤ d && d < 17 && !pass then laneFail s (d - 8) .kat else s
      let s := if 27 ≤ d then setFlag s (Reg.HBM_STATUS (d - 27)) 3 false else s
      domReply s d true
    else s)

/-! ## The budget (R427 to R430) -/

/-- The depth in tokens. -/
def depth (s : State) : Nat := effCap s * 1000

/-- AVAILABLE: the depth less the tokens of the last 1 ms (R429). -/
def available (s : State) : Int := (depth s : Int) - s.dry.spent.sum

/-- RESERVED. -/
def reservedTokens (s : State) : Nat := (s.dry.resv.map Resv.tokens).sum

/-- DRY_CAP_SET: the cap in W. -/
def capSetBody : OpBody where
  lenOk := slots 1
  run c s :=
    let w := slot c.params 0
    checked [(0, 120 ≤ w && w ≤ variantMax s.variant)] s fun _ => grant (setFld s (Reg.DRY_CAP) 8 0 w)

/-- DRY_CAP_SET (R427). -/
def execDryCapSet (pf : Nat) (buf : ParamBuf) (s : State) : Host.Outcome State Fault Refusal :=
  joryen 0x0900 capSetBody pf buf s

/-- Compare the floor with the effective cap (R430): OVER_CAP is set and recorded as the floor comes to exceed it. -/
def checkFloor (s : State) : State :=
  let fl := fld s (Reg.DRY_FLOOR) 8 0
  let over' := effCap s < fl
  let s' := { s with dry := { s.dry with overCap := over' } }
  if over' && !s.dry.overCap then logErr (hwSet s' (Reg.DRY_STATUS) 1 7 0) 0x0901 2 0x900 [fl, effCap s] else s'

/-- DRY_QUERY: AVAILABLE, RESERVED, effective cap, floor and power in 4 bytes each, then the 64 forecasts and the 29
domain states, a byte each. -/
def dryQueryBody : OpBody where
  lenOk := noParams
  run _ s :=
    let s := checkFloor s
    grant s [] (toLe 4 (toBits 32 (available s)) ++ toLe 4 (reservedTokens s) ++ toLe 4 (effCap s) ++
      toLe 4 (fld s (Reg.DRY_FLOOR) 8 0) ++ toLe 4 (fld s (Reg.DRY_POWER) 15 0) ++
      ((List.range 64).flatMap fun i => toLe 1 (fld s (Reg.DRY_TEMP i) 15 8)) ++
      (List.range 29).flatMap fun d => toLe 1 (fld s (Reg.DRY_DOMAIN_STATE d) 3 0))

/-- DRY_QUERY (R430). -/
def execDryQuery (pf : Nat) (buf : ParamBuf) (s : State) : Host.Outcome State Fault Refusal :=
  joryen 0x0902 dryQueryBody pf buf s

/-- ESTIMATE_CORRECTION (R428): what the regulators report, the measured power and the floor estimate. -/
def execEstimateCorrection (reported : List Nat) (deciWatt floor : Nat) (s : State) : Host.Outcome State Fault Refusal :=
  live s fun s =>
    let s := (List.range 2).foldl (fun s r =>
      match reported[r]? with
      | some v => setFld s (Reg.CAL_RAIL_STATUS r) 25 16 v
      | none => s) s
    setFld (setFld s (Reg.DRY_POWER) 15 0 deciWatt) (Reg.DRY_FLOOR) 8 0 floor

/-! ## Dispatch (R433 to R435) -/

/-- The cost kind of an entry (R434), and the bytes it is charged for. -/
def costKind (e : QEntry) : Nat :=
  if e.op = 0x01 then 0
  else if e.op = 0x20 then
    let c := leAt e.block 0 1
    if c < 0x10 then 2 else if c < 0x12 then 3 else if c < 0x14 then 4 else if c = 0x14 then 5 else 6
  else 1
def costBytes (e : QEntry) : Nat := if e.op = 0x20 then jobSrcLen e.block else e.len

/-- The estimate in tokens, capped at 1/16 of the depth. -/
def estimate (s : State) (e : QEntry) : Nat :=
  let k := Reg.DRY_COST_0 + 4 * costKind e
  min (ceilDiv (fld s k 15 0 * 1024 + fld s k 31 16 * costBytes e) 1024000) (depth s / 16)

/-- The entry a queue waits with. -/
def waitingItem (q : Queue) : Option QEntry :=
  if (q.state = 1 ∨ q.state = 2) ∧ (q.type = 0 ∨ q.type = 2 ∨ q.type = 4) then
    q.entries.find? fun e => match e.state with | .ready _ => true | _ => false
  else none

/-- The class of an item (R433). -/
def itemClass (s : State) (qid : Nat) (q : Queue) (e : QEntry) : Nat :=
  let sched := e.state == .ready true ||
    (match q.conn.bind (tget s.wove.conns) with
     | some c => q.type == 2 && isSched s c.mac c.tc
     | none => false)
  if sched then 0 else fld s (Reg.DRY_Q_CLASS (qid / 16)) (2 * (qid % 16) + 1) (2 * (qid % 16))

/-- The queues with a waiting item of a class, those numbered above the one served last first. -/
def classQueues (s : State) (k : Nat) : List Nat :=
  let l := (s.wq.queues.filter fun p => match waitingItem p.2 with
    | some e => itemClass s p.1 p.2 e == k
    | none => false).map Prod.fst
  let last := tgetD s.dry.rr k 0
  l.filter (last < ·) ++ l.filter (· ≤ last)

/-- Start a queue's waiting item. -/
def dispatchItem (s : State) (k qid : Nat) (q : Queue) (e : QEntry) : State :=
  let s := { s with dry := { s.dry with rr := tset s.dry.rr k qid } }
  kickOf (flushQ (startEntry s qid q e) qid) qid

/-- Serve one class: at most `n` items; `held` are the queues whose item did not fit or could not start. Answers what is
left of the budget and whether an item was held for tokens. -/
def serveClass (k : Nat) : Nat → List Nat → Int → Bool → State → Int × Bool × State
  | 0, _, left, h, s => (left, h, s)
  | n + 1, held, left, h, s =>
    match (classQueues s k).find? fun q => !held.contains q with
    | none => (left, h, s)
    | some qid =>
      match (tget s.wq.queues qid).bind fun q => (waitingItem q).map fun e => (q, e) with
      | none => (left, h, s)
      | some (q, e) =>
        let c := estimate s e
        if k = 0 ∨ ((c : Int) ≤ left ∧ !s.dry.emergency) then
          let t := dispatchItem s k qid q e
          let stuck := (tget t.wq.queues qid).bind waitingItem == some e
          serveClass k n (if stuck then qid :: held else held) (if k = 0 ∨ stuck then left else left - c) h t
        else serveClass k n (qid :: held) left true s

/-- The classes in order; nothing of a lower class starts once an item was held (R435). -/
def serveClasses (n : Nat) : List Nat → Int → State → Bool × State
  | [], _, s => (false, s)
  | k :: ks, left, s =>
    match serveClass k n [] left false s with
    | (_, true, t) => (true, t)
    | (l, false, t) => serveClasses n ks l t

/-- The dispatch of one accounting step (R435). -/
def dispatch (s : State) : State :=
  let n := (s.wq.queues.map fun p => p.2.entries.length + 1).sum
  match serveClasses n [0, 1, 2, 3] (available s - (reservedTokens s : Int)) s with
  | (true, t) => count t (Reg.DRY_DEFERRED)
  | (false, t) => t

/-- Take what a port's open window spent from its reservation (R436). -/
def useResv (s : State) (mac cls tokens : Nat) : State :=
  let now := phcNow s (portPhc s mac)
  { s with dry := { s.dry with resv := s.dry.resv.map fun r =>
    if r.mac = mac ∧ r.cls = cls ∧ r.opens ≤ now ∧ now < r.closes then { r with tokens := r.tokens - tokens } else r } }

/-- ACCOUNTING_STEP (R428, R429, R435, R436): the tokens measured in the last 1 µs, and those of open windows. -/
def execAccountingStep (spent : Nat) (win : List (Nat × Nat × Nat)) (s : State) : Host.Outcome State Fault Refusal :=
  live s fun s =>
    let s := count { s with dry := { s.dry with spent := (spent :: s.dry.spent).take 1000 } } (Reg.DRY_SPENT) spent
    let s := showReserved (win.foldl (fun s w => useResv s w.1 w.2.1 w.2.2) s)
    dispatch (wr s (Reg.DRY_AVAIL) (BitVec.ofNat 32 (toBits 32 (available s))))

/-! ## Holding to the cap (R431, R432) -/

/-- Choose one member of a list, as the device does by estimates the model does not hold. -/
def pickOf (s : State) (l : List Nat) : Option Nat × State :=
  if l.isEmpty then (none, s)
  else
    let (v, s) := free s
    (l[v.toNat % l.length]?, s)

/-- A quire has a thread of class SCHEDULED that is RUNNING or BLOCKED. -/
def schedQuire (s : State) (q : Nat) : Bool :=
  (List.range 64).any fun i =>
    let h := 64 * q + i
    ((hartOf s h).st == 1 || (hartOf s h).st == 2) && threadClass s h == 0

/-- The quires that can go one divider step lower. -/
def slowable (s : State) (sched : Bool) : List Nat :=
  (List.range (quireCount s.variant)).filter fun q =>
    domOpen s q && quireDiv s q < 3 && schedQuire s q == sched

/-- Lower one quire by one step. -/
def stepQuire (s : State) (q : Nat) : State :=
  setFld { s with dry := { s.dry with steps := .quire q :: s.dry.steps } } (Reg.QUIRE_STATUS q) 9 8 (quireDiv s q + 1)

/-- PIPE_CLK may change: not within 1 ms of its last change. -/
def pipeFree (s : State) : Bool :=
  match s.dry.pipeAt with
  | none => true
  | some t => t + 2000000 ≤ s.deviceTime.toNat

/-- Set PIPE_CLK to root/4, or back to root/3. -/
def setPipeSlow (s : State) (v : Bool) : State :=
  setFlag { s with dry := { s.dry with pipeAt := some s.deviceTime.toNat } } (Reg.DRY_STATUS) 7 v

/-- The domains the dryer may close on its own now (R423). -/
def autoClosable (s : State) : List Nat :=
  ((List.range 21).filter (8 ≤ ·)).filter fun d =>
    domPresent s d && domOpen s d && flag s (Reg.DRY_DOMAIN_CFG d) 31 && domEmpty s d &&
    !s.dry.toClose.contains d && mayClose s d && (17 ≤ d || 8 ≤ laneRoleOf s (d - 8))

/-- The first step of R431 that the grade permits and that remains. -/
def capStep (s : State) : State :=
  let g := powerGrade s
  let div := !divLocked g && g != .frozen
  match pickOf s (if div then slowable s false else []) with
  | (some q, t) => stepQuire t q
  | (none, s) =>
    if g == .capped && flag s (Reg.DRY_CFG) 1 && !flag s (Reg.DRY_STATUS) 7 && pipeFree s then
      setPipeSlow { s with dry := { s.dry with steps := .pipeSlow :: s.dry.steps } } true
    else
      match pickOf s (if g == .capped && flag s (Reg.DRY_CFG) 0 then autoClosable s else []) with
      | (some d, t) => { t with dry := { t.dry with steps := .domain d :: t.dry.steps, toClose := insNat d t.dry.toClose } }
      | (none, s) =>
        match pickOf s (if div then slowable s true else []) with
        | (some q, t) => stepQuire t q
        | (none, t) => t

/-- CAP_CHECK (R431, R430). -/
def execCapCheck (s : State) : Host.Outcome State Fault Refusal :=
  live s fun s =>
    let s := checkFloor s
    let a := available s
    let low := a < (fld s (Reg.DRY_CFG) 31 24 * depth s / 256 : Nat) && a ≤ s.dry.lastAvail
    let s := if low && !s.dry.emergency then capStep s else s
    { s with dry := { s.dry with lastAvail := a } }

/-- A signed byte. -/
def degrees (v : Nat) : Int := signed 8 v

/-- The forecast, and the reading, of a sensor. -/
def forecastOf (s : State) (i : Nat) : Int := degrees (fld s (Reg.DRY_TEMP i) 15 8)
def tempOf (s : State) (i : Nat) : Int := degrees (fld s (Reg.DRY_TEMP i) 7 0)
def tjLimit (s : State) : Int := fld s (Reg.DRY_CFG) 15 8

/-- Every forecast is at most a temperature. -/
def forecastsWithin (s : State) (t : Int) : Bool := (List.range 64).all fun i => forecastOf s i ≤ t

/-- Undo the latest step (R431). A divider is raised by CORE_CLK_RAISE, once the rail stands (R432). -/
def undoStep (s : State) : State :=
  match s.dry.steps with
  | [] => s
  | .quire _ :: rest => { s with dry := { s.dry with steps := rest } }
  | .pipeSlow :: rest => if pipeFree s then setPipeSlow { s with dry := { s.dry with steps := rest } } false else s
  | .domain d :: rest =>
    startOpen { s with dry := { s.dry with steps := rest, toClose := s.dry.toClose.filter (· != d) } } d

/-- CAP_STEP_UNDO (R431). -/
def execCapStepUndo (s : State) : Host.Outcome State Fault Refusal :=
  live s fun s =>
    if (fld s (Reg.DRY_CFG) 23 16 * depth s / 256 : Nat) ≤ available s && forecastsWithin s (tjLimit s - 3) &&
        !s.dry.emergency then undoStep s
    else s

/-- CORE_CLK_RAISE (R432): the regulator reports VDD_CORE, and the quire goes up to the divider it should have. -/
def execCoreClkRaise (q reported : Nat) (s : State) : Host.Outcome State Fault Refusal :=
  within (q < quireCount s.variant) (live s fun s =>
    let s := setFld s (Reg.CAL_RAIL_STATUS 0) 25 16 reported
    setFld s (Reg.QUIRE_STATUS q) 9 8 (divTarget s q))

/-! ## Ramps (R437) -/

/-- One microsecond in 2^-16 ns. -/
def oneUs : Nat := 1000 * 65536

/-- The AVS loops own the rails: 10 ms have passed since POR_N release, where DEVICE_TIME starts (R168, R473). -/
def avsOwned (s : State) : Bool := 20000000 ≤ s.deviceTime.toNat

/-- Ask a regulator for a voltage: one AVSBus transaction. -/
def setRail (s : State) (r mv : Nat) : State :=
  emit (setFld s (Reg.CAL_RAIL_STATUS r) 9 0 mv) (.mgmt "AVSBUS_SET" (toLe 1 r ++ toLe 2 mv))

/-- The highest voltage of an adaptive rail in mV (R442). -/
def railMax (r : Nat) : Nat := if r = 0 then 950 else 900

/-- The reservation that calls for a ramp: its expected power is at least RAMP_MIN_W, its opening at most LEAD ahead, and
it has not been ramped. -/
def rampDue (s : State) (mac : Nat) : Option Resv :=
  let now := phcNow s (portPhc s mac)
  s.dry.resv.find? fun r =>
    r.mac == mac && !r.ramped && now < r.closes && r.opens ≤ now + fld s (Reg.DRY_RAMP) 31 24 * oneUs &&
    fld s (Reg.DRY_RAMP) 15 8 * (r.closes - r.opens) ≤ r.tokens * oneUs

/-- The ramp can no longer reach its value 1 µs ahead of the opening. -/
def rampLate (s : State) (mac : Nat) (r : Resv) : Bool :=
  let slew := max 1 (fld s (Reg.CAL_RAIL_CFG 1) 3 0)
  let need := (ceilDiv (fld s (Reg.DRY_RAMP) 23 16) slew + 1) * oneUs
  r.opens < phcNow s (portPhc s mac) + need

/-- RAMP_START (R437): VDD_DP goes up by RAMP_MV, not above its maximum; one ramp in force raises it for all. -/
def execRampStart (mac : Nat) (late : Bool) (s : State) : Host.Outcome State Fault Refusal :=
  within (mac < macCount s.variant) (live s fun s =>
    match rampDue s mac with
    | none => s
    | some r =>
      if late && !rampLate s mac r then s
      else
        let sp := fld s (Reg.CAL_RAIL_STATUS 1) 9 0
        let t := if s.dry.ramps.isEmpty && !s.dry.avsHeld.contains 1 && avsOwned s then
            setRail s 1 (max sp (min (railMax 1) (sp + fld s (Reg.DRY_RAMP) 23 16))) else s
        let t := { t with dry := { t.dry with
          ramps := t.dry.ramps ++ [(mac, r.closes)]
          resv := t.dry.resv.map fun x => if x = r then { x with ramped := true } else x } }
        if late then hwSet t (Reg.DRY_STATUS) 2 15 8 else t)

/-- RAMP_END (R437): 1 µs after a window of the port closed its hold ends. -/
def execRampEnd (mac : Nat) (s : State) : Host.Outcome State Fault Refusal :=
  within (mac < macCount s.variant) (live s fun s =>
    let now := phcNow s (portPhc s mac)
    { s with dry := { s.dry with ramps := s.dry.ramps.filter fun r => !(r.1 == mac && r.2 + oneUs ≤ now) } })

/-! ## Heat (R438 to R440, R485) -/

/-- Drive THERM_ALERT_N: low while a forecast exceeds TJ_LIMIT or a sensor reads 108 °C or more. -/
def showAlert (s : State) : State :=
  let low := !forecastsWithin s (tjLimit s) || (List.range 64).any fun i => 108 ≤ tempOf s i
  if low == s.dry.alertLow then s
  else emit { s with dry := { s.dry with alertLow := low } } (.pin "THERM_ALERT_N" !low)

/-- THERMAL_FORECAST (R438): the forecast of the device's thermal model, which the spec does not give. -/
def execThermalForecast (sensor : Nat) (temp : Byte) (power : Nat) (s : State) : Host.Outcome State Fault Refusal :=
  within (sensor < 64) (live s fun s =>
    let f := Config.thermalForecast sensor temp power (reservedTokens s)
    let a := Reg.DRY_TEMP sensor
    showAlert (setFld (setFld s a 15 8 f.toNat) a 7 0 temp.toNat))

/-- THERMAL_CAP_STEP (R439). -/
def execThermalCapStep (s : State) : Host.Outcome State Fault Refusal :=
  live s fun s =>
    let a := Reg.DRY_EFF_CAP
    let cap := fld s a 24 16
    if !forecastsWithin s (tjLimit s) then hwSet (setFld s a 24 16 (max (min cap 120) (cap - 2))) (Reg.DRY_STATUS) 3 19 16
    else if forecastsWithin s (tjLimit s - 3) && cap < gradeCap s then setFld s a 24 16 (min (gradeCap s) (cap + 2))
    else s

/-- THERMAL_EMERGENCY (R440): 108 °C or more at a sensor. -/
def execThermalEmergency (sensor : Nat) (temp : Byte) (s : State) : Host.Outcome State Fault Refusal :=
  within (sensor < 64) (live s fun s =>
    if degrees temp.toNat < 108 then s
    else
      let s := setFld s (Reg.DRY_TEMP sensor) 7 0 temp.toNat
      if s.dry.emergency then showAlert s
      else
        let s := lowerDivs { s with dry := { s.dry with emergency := true } }
        showAlert (logErr (hwSet s (Reg.DRY_STATUS) 4 23 20) 0x0902 2 0x928 [sensor, temp.toNat]))

/-- THERMAL_EMERGENCY_END (R440): every sensor reads 100 °C or less. -/
def execThermalEmergencyEnd (s : State) : Host.Outcome State Fault Refusal :=
  live s fun s =>
    if (List.range 64).all fun i => tempOf s i ≤ 100 then showAlert { s with dry := { s.dry with emergency := false } }
    else s

/-! ## Caliper and AVS (R441 to R444, R18) -/

/-- The rail of a slack monitor: 0 VDD_CORE, 1 VDD_DP. -/
def monRail (n : Nat) : Nat := if n < 144 then 0 else 1

/-- The monitor measures slack on the variant, and its domain is not CLOSED (R441). -/
def monLive (s : State) (n : Nat) : Bool :=
  let d := if n < 144 then some ((n - 16) / 16)
    else if n < 184 then (if (n - 144) / 4 < 8 then some (21 + (n - 144) / 8) else none)
    else if n < 202 then some (8 + (n - 184) / 2)
    else if n < 210 then some (17 + (n - 202) / 2)
    else none
  16 ≤ n && n < 256 && (match d with | some d => domState s d != 2 | none => true)

/-- SUPPLY_DROOP (R18, R443): a slack below DROOP starts the stretching of the rail's clocks. -/
def execSupplyDroop (mon : Nat) (slack : Byte) (s : State) : Host.Outcome State Fault Refusal :=
  within (16 ≤ mon && mon < 256) (live s fun s =>
    if !monLive s mon then s
    else
      let r := monRail mon
      let s := monitor s mon slack
      if slack.toNat < fld s (Reg.CAL_RAIL_CFG r) 15 8 then
        { s with dry := { s.dry with stretching := insNat r s.dry.stretching } }
      else s)

/-- STRETCH_END (R443): every monitor has read at least DROOP for 16 root cycles; `edges` root edges were skipped. -/
def execStretchEnd (rail edges : Nat) (s : State) : Host.Outcome State Fault Refusal :=
  within (rail < 2) (live s fun s =>
    if s.dry.stretching.contains rail then
      count { s with dry := { s.dry with stretching := s.dry.stretching.filter (· != rail) } } (Reg.GLB_STRETCH_CNT) edges
    else s)

/-- The lowest slack of a list of readings. -/
def lowestSlack (l : List (Nat × Byte)) : Option Nat :=
  l.foldl (fun m x => match m with | none => some x.2.toNat | some v => some (min v x.2.toNat)) none

/-- The lowest voltage of an adaptive rail in mV (R442). -/
def railMin : Nat := 650

/-- AVS_LOOP (R442): the readings of the rail's monitors, and whether the regulator took the transaction. -/
def execAvsLoop (rail : Nat) (slacks : List (Nat × Byte)) (good : Bool) (s : State) :
    Host.Outcome State Fault Refusal :=
  within (rail < 2) (live s fun s =>
    let l := slacks.filter fun x => monRail x.1 == rail && monLive s x.1
    let s := l.foldl (fun s x => monitor s x.1 x.2) s
    match lowestSlack l with
    | none => s
    | some m =>
      let cfg := Reg.CAL_RAIL_CFG rail
      let target := fld s cfg 31 24
      let hyst := fld s cfg 23 16
      let sp := fld s (Reg.CAL_RAIL_STATUS rail) 9 0
      let to' := if m < target - hyst then sp + fld s cfg 7 4
        else if target + hyst < m && !(rail == 1 && !s.dry.ramps.isEmpty) then sp - fld s cfg 7 4
        else sp
      if to' = sp ∨ !good ∨ s.dry.avsHeld.contains rail ∨ !avsOwned s then s
      else setRail s rail (max railMin (min (railMax rail) to')))

/-- MARGIN_EXHAUSTED (R444): the rail stands at its maximum. -/
def execMarginExhausted (rail : Nat) (s : State) : Host.Outcome State Fault Refusal :=
  within (rail < 2) (live s fun s =>
    if fld s (Reg.CAL_RAIL_STATUS rail) 9 0 < railMax rail then s
    else
      let s := hwSet s (Reg.DRY_STATUS) 5 27 24
      if divLocked (powerGrade s) then s else capStep s)

/-- AVS_FAULT (R444): the rail is held at its last confirmed setting, every quire at root/3 or slower. -/
def execAvsFault (rail : Nat) (s : State) : Host.Outcome State Fault Refusal :=
  within (rail < 2) (live s fun s =>
    let s := { s with dry := { s.dry with avsHeld := insNat rail s.dry.avsHeld } }
    logErr (hwSet (lowerDivs s) (Reg.DRY_STATUS) 6 31 28) 0x0903 2 0x921 [rail])

end Sys2Proof.Machine
end

