-- ==== Sys2Proof/Machine/Boot.lean ====
section
/-! DEFINITION. Boot and security (R450 to R468, R487): bundles and images, boot sources and pushes, minimum versions, key
slots, attestation, management requests, and the events of the first second. -/

namespace Sys2Proof.Machine

/-! ## Images (R454 to R457) -/

/-- The most payload bytes of an image of a TYPE, and the ranges of LOAD_ADDR and ENTRY. -/
def payloadMax (typ : Nat) : Nat := match typ with | 1 => 262144 | 2 => 2097152 | _ => 65536
def addrOk (typ a : Nat) : Bool :=
  match typ with
  | 1 => 0x00100000 ≤ a && a ≤ 0x0013FFFF
  | 2 => a ≤ 0x003FFFFF
  | _ => a == 0

/-- SVN, VERSION and KEY_INDEX of an image. -/
def imgSvn (i : List Byte) : Nat := leAt i 8 4
def imgVersion (i : List Byte) : Nat := leAt i 12 4
def imgKey (i : List Byte) : Nat := leAt i 7 1

/-- The FORMAT check of an image (R455). -/
def imgFormat (typ : Nat) (i : List Byte) : Bool :=
  8192 ≤ i.length && slice i 0 4 == [0x46, 0x5A, 0x49, 0x4D] && leAt i 4 2 == 1 && leAt i 6 1 == typ && imgKey i < 4 &&
  leAt i 16 4 ≤ payloadMax typ && i.length == 8192 + leAt i 16 4 && addrOk typ (leAt i 20 4) && addrOk typ (leAt i 24 4) &&
  !(nonZero i 28 4) && !(nonZero i 80 16) && !(nonZero i 5549 2643)

/-- Verify an image (R456): the code of the first check that fails. -/
def verifyImage (b : BootState) (typ : Nat) (i : List Byte) : Option Nat :=
  let k := imgKey i
  if !imgFormat typ i then some 0x02
  else if b.fuses.revoked.contains k then some 0x03
  else if tget b.fuses.digests k ≠ some (sha384 (slice i 96 2048)) then some 0x04
  else if !Config.ecdsaVerify (slice i 96 96) (sha384 (i.take 2144)) (slice i 2144 96) then some 0x05
  else if !Config.mldsaVerify (slice i 192 1952) (i.take 2144) (slice i 2240 3309) then some 0x06
  else if sha384 (i.drop 8192) ≠ slice i 32 48 then some 0x07
  else if typ < 3 ∧ imgSvn i < minVer b (typ - 1) then some 0x08
  else none

/-- The entries of a bundle's directory: TYPE, OFFSET, LENGTH. -/
def dirEntries (d : List Byte) : List (Nat × Nat × Nat) :=
  (List.range (leAt d 8 4)).map fun i => (leAt d (16 + 16 * i) 4, leAt d (20 + 16 * i) 4, leAt d (24 + 16 * i) 4)

/-- The FORMAT check of a directory (R454). -/
def dirFormat (d : List Byte) : Bool :=
  4096 ≤ d.length && slice d 0 4 == [0x46, 0x5A, 0x42, 0x44] && leAt d 4 4 == 1 &&
  (leAt d 8 4 == 2 || leAt d 8 4 == 3) && !(nonZero d 12 4) && leAt d 4092 4 == crc32c (d.take 4092) &&
  (dirEntries d).all (fun e => e.2.1 + e.2.2 ≤ d.length) &&
  (List.range (leAt d 8 4)).all (fun i => !(nonZero d (28 + 16 * i) 4)) &&
  (List.range (leAt d 8 4)).all fun i => ((dirEntries d).filter fun e => e.1 == i + 1).length == 1

/-- The image of a TYPE in a bundle. -/
def imageOf (d : List Byte) (typ : Nat) : Option (List Byte) :=
  ((dirEntries d).find? fun e => e.1 == typ).map fun e => slice d e.2.1 e.2.2

/-- Verify the image of a TYPE in a bundle, if there is one. -/
def verifyEntry (b : BootState) (d : List Byte) (typ : Nat) : Option Nat := (imageOf d typ).bind (verifyImage b typ)

/-- Verify a bundle (R450 step 2): stage 1, management, then the boot configuration if present. -/
def verifyBundle (b : BootState) (d : Option (List Byte)) : Option Nat :=
  match d with
  | none => some 0x01
  | some d =>
    if !dirFormat d then some 0x02
    else ((verifyEntry b d 1).or (verifyEntry b d 2)).or (verifyEntry b d 3)

/-- The images of a bundle by TYPE. -/
def bundleImages (d : List Byte) : Tab (List Byte) :=
  ((List.range 3).filterMap fun i => (imageOf d (i + 1)).map fun x => (i + 1, x))

/-! ## Key slots (R460, R461) -/

/-- STATE and CONSUMER of a key slot: 0 EMPTY, 1 OPEN, 2 BOUND, 3 SESSION, 4 CLOSED. -/
def slotState (s : State) (n : Nat) : Nat := fld s (Reg.MLD_KS_STATE n) 2 0
def slotConsumer (s : State) (n : Nat) : Nat := fld s (Reg.MLD_KS_STATE n) 7 4
def setSlot (s : State) (n st consumer : Nat) : State :=
  setFld (setFld s (Reg.MLD_KS_STATE n) 2 0 st) (Reg.MLD_KS_STATE n) 7 4 consumer

/-- Fill a slot. -/
def putKey (s : State) (n st consumer : Nat) (key : List Byte) : State :=
  setSlot { s with boot := { s.boot with keys := tset s.boot.keys n key } } n st consumer

/-- Empty a slot. -/
def dropKey (s : State) (n : Nat) : State :=
  setSlot { s with boot := { s.boot with keys := terase s.boot.keys n } } n 0 0

/-- Stage 1 starts and derives slots 0 to 3 (R460); the random value behind slot 1 is a free value. -/
def fillSlots (s : State) : State :=
  let (r, s) := freeBytes s 4
  let b := s.boot
  let s := putKey s 0 1 0 b.fuses.secret
  let s := putKey s 1 1 0 (hkdf b.fuses.secret r 32)
  let s := putKey s 2 1 0 (hkdf b.fuses.secret (sha384 (tgetD b.images 1 [])) 48)
  putKey s 3 1 0 b.fuses.debug

/-! ## Boot sources (R450 to R452, R456) -/

/-- The source that is being tried: a push under way, or the flash at the head of the order. -/
def triedSource (s : State) : Option Nat :=
  match s.boot.push with
  | some p => some p
  | none =>
    if stage s = 1 then (match s.boot.sources with | f :: _ => if f < 2 then some f else none | [] => none) else none

/-- A source fails (R450, R456): the code and the source are recorded, and the ROM goes on to the next, or waits for the
next push in RECOVERY_WAIT. -/
def sourceFails (s : State) (src code : Nat) : State :=
  let a := Reg.BOOT_STATUS
  let s := setFld (setFld s a 31 24 code) a 19 18 src
  let s := setFld s a 15 8 (min 255 (fld s a 15 8 + 1))
  let s := logErr s 0x0B01 2 0xB00 [src, code]
  let s := if src = 2 then setRec (setFld s (Reg.BOOT_REC_STATUS) 31 24 code) 4 else s
  enterSource { s with boot := { s.boot with push := none, sources := s.boot.sources.drop 1 } }

/-- A source succeeds: stage 1 runs from its images. -/
def sourceBoots (s : State) (src : Nat) (d : List Byte) : State :=
  let a := Reg.BOOT_STATUS
  let s := setFld (setFld s a 17 16 src) a 15 8 (min 255 (fld s a 15 8 + 1))
  let s := setRec (setStage s 4) (if src = 2 then 3 else 0)
  fillSlots { s with boot := { s.boot with
    push := none
    images := bundleImages d
    configured := (imageOf d 3).isNone } }

/-- BOOT_SOURCE_ATTEMPT (R456): the source's bundle as read, from the directory on; for a flash it is what that flash
holds. -/
def execBootSourceAttempt (bundle : Option (List Byte)) (s : State) : Host.Outcome State Fault Refusal :=
  live s fun s =>
    match triedSource s with
    | none => s
    | some src =>
      let s := match bundle with
        | some d => if src < 2 then { s with boot := { s.boot with flash := tset s.boot.flash src d } } else s
        | none => s
      match verifyBundle s.boot bundle with
      | some code => sourceFails s src code
      | none => sourceBoots s src (bundle.getD [])

/-- PUSH_WAIT_TIMEOUT (R452): a push source got no push within 30 s; it could not be read. -/
def execPushWaitTimeout (s : State) : Host.Outcome State Fault Refusal :=
  live s fun s =>
    match s.boot.sources with
    | src :: _ => if stage s = 2 ∧ s.boot.push.isNone then sourceFails s src 0x01 else s
    | [] => s

/-- The recovery window is in use: PUSH_WAIT on the host push, or RECOVERY_WAIT. -/
def recActive (s : State) : Bool := (stage s == 2 && s.boot.sources.head? == some 2) || stage s == 3

/-- A write of BOOT_REC_GO (R452): the push starts, or is rejected with READ while PF 0 may not read. -/
def recGo (s : State) (v : Word) : State :=
  if recActive s && bits v 0 0 == 1 && (recState s == 1 || recState s == 4) && s.boot.push.isNone then
    if (fnOf s 0).bme then
      emit (setRec { s with boot := { s.boot with push := some 2 } } 2)
        (.mgmt "BOOT_READ" (toLe 8 (rd64 s (Reg.BOOT_REC_ADDR)) ++ toLe 4 (fld s (Reg.BOOT_REC_LEN) 22 0)))
    else sourceFails s 2 0x01
  else s

/-- BOOT_REC_GO (R452). -/
def execBootRecGo (m : Master) (v : Word) (s : State) : Host.Outcome State Fault Refusal :=
  onWrite s m fun s => recGo s v

/-- PLDM_REQUEST_UPDATE (R452): component 0xF200 starts a BMC push where one is waited for. -/
def execPldmRequestUpdate (comp : Nat) (s : State) : Host.Outcome State Fault Refusal :=
  live s fun s =>
    if comp = 0xF200 ∧ s.boot.push.isNone ∧ (stage s = 3 ∨ (stage s = 2 ∧ s.boot.sources.head? = some 3)) then
      emit { s with boot := { s.boot with push := some 3 } } (.mgmt "PLDM_UPDATE_ACCEPTED" [])
    else emit s (.mgmt "PLDM_UPDATE_REFUSED" [])

/-- KEY_SLOT_LOCK (R460, R461): once stage 1 runs. -/
def execKeySlotLock (s : State) : Host.Outcome State Fault Refusal :=
  live s fun s =>
    if stage s = 4 ∧ !flag s (Reg.MLD_KS_LOCK) 0 then
      setFlag (setSlot (setSlot (setSlot (setSlot s 0 4 0) 1 2 1) 2 2 2) 3 2 3) (Reg.MLD_KS_LOCK) 0 true
    else s

/-! ## Key-slot operations (R462) -/

/-- A key-slot operation while stage 1 runs: `none` is DENIED. -/
def ksOp (s : State) (f : State → Option (List Byte × State)) : Host.Outcome State Fault Refusal :=
  live s fun s =>
    if stage s ≠ 4 then s
    else match f s with
      | some (b, t) => emit t (.ks (some b))
      | none => emit s (.ks none)

/-- The key of a slot for a consumer, where the slot is BOUND or SESSION and bound to it. -/
def keyFor (s : State) (n consumer : Nat) : Option (List Byte) :=
  if (slotState s n == 2 || slotState s n == 3) && slotConsumer s n == consumer then tget s.boot.keys n else none

/-- A slot that firmware may load: 5 to 63. -/
def loadable (n : Nat) : Bool := 5 ≤ n && n < 64

/-- Load a SESSION slot: an EMPTY one is bound to `consumer`, a SESSION slot stays bound as it is. -/
def loadSlot (s : State) (n consumer : Nat) (key : List Byte) : State :=
  putKey s n 3 (if slotState s n = 3 then slotConsumer s n else consumer) key

/-- KS_SIGN (R462). -/
def execKsSign (n : Nat) (digest : List Byte) (s : State) : Host.Outcome State Fault Refusal :=
  ksOp s fun s => (keyFor s n 2).map fun k => (Config.ecdsaSign k digest, s)

/-- KS_DERIVE (R462): 32 bytes into a SESSION slot. -/
def execKsDerive (src dst : Nat) (info : List Byte) (s : State) : Host.Outcome State Fault Refusal :=
  ksOp s fun s =>
    if loadable dst then (keyFor s src 5).map fun k => ([], loadSlot s dst 5 (hkdf k info 32)) else none

/-- KS_WRAP (R462). -/
def execKsWrap (n : Nat) (key : List Byte) (s : State) : Host.Outcome State Fault Refusal :=
  ksOp s fun s => (keyFor s n 5).map fun k => (keyWrap k key, s)

/-- KS_UNWRAP (R462). -/
def execKsUnwrap (n dst : Nat) (wrapped : List Byte) (s : State) : Host.Outcome State Fault Refusal :=
  ksOp s fun s =>
    if loadable dst then
      ((keyFor s n 5).bind fun k => keyUnwrap k wrapped).map fun k => ([], loadSlot s dst 5 k)
    else none

/-- KS_LOAD (R462): the slot is bound at load. -/
def execKsLoad (n consumer : Nat) (key : List Byte) (s : State) : Host.Outcome State Fault Refusal :=
  ksOp s fun s =>
    if loadable n && 1 ≤ consumer && consumer ≤ 5 then some ([], putKey s n 3 consumer key) else none

/-! ## Attestation (R463) -/

/-- The six measurement blocks. The ROM's and the fuse configuration's are free values. -/
def measurements (s : State) : List Byte × State :=
  let (rom, s) := freeBytes s 6
  let (fuse, s) := freeBytes s 6
  let img := fun t => sha384 (tgetD s.boot.images t [])
  (rom ++ img 1 ++ img 2 ++ img 3 ++ fuse ++ toLe 4 (minVer s.boot 0) ++ toLe 4 (minVer s.boot 1), s)

/-- Measurements signed with slot 2 over a nonce. -/
def signedMeasurements (s : State) (nonce : List Byte) : List Byte × State :=
  let (m, s) := measurements s
  (m ++ Config.ecdsaSign (tgetD s.boot.keys 2 []) (sha384 (m ++ nonce)), s)

/-- Stage 1 answers an SPDM request. The bodies of the answers, which SPDM lays out, are not modelled, but for the
measurements. -/
def spdmAnswer (s : State) (r : SpdmReq) : State :=
  match r with
  | .getVersion => emit s (.mgmt "SPDM_VERSION" [])
  | .getCapabilities => emit s (.mgmt "SPDM_CAPABILITIES" [])
  | .negotiateAlgorithms => emit s (.mgmt "SPDM_ALGORITHMS" [])
  | .getDigests => emit s (.mgmt "SPDM_DIGESTS" [])
  | .getCertificate => emit s (.mgmt "SPDM_CERTIFICATE" [])
  | .challenge =>
    let (m, s) := signedMeasurements s []
    emit s (.mgmt "SPDM_CHALLENGE_AUTH" m)
  | .getMeasurements =>
    let (m, s) := signedMeasurements s []
    emit s (.mgmt "SPDM_MEASUREMENTS" m)
  | .keyExchange => emit s (.mgmt "SPDM_KEY_EXCHANGE_RSP" [])
  | .finish secret =>
    let s := putKey s 4 3 4 (hkdf secret [0x66, 0x7A, 0x6B, 0x74] 32)
    emit { s with boot := { s.boot with session := true } } (.mgmt "SPDM_FINISH_RSP" [])
  | .heartbeat => emit s (.mgmt "SPDM_HEARTBEAT_ACK" [])
  | .keyUpdate => emit s (.mgmt "SPDM_KEY_UPDATE_ACK" [])
  | .endSession =>
    let s := dropKey s 4
    emit { s with boot := { s.boot with session := false } } (.mgmt "SPDM_END_SESSION_ACK" [])
  | .other => emit s (.mgmt "SPDM_ERROR" [0x07])

/-- SPDM_REQUEST (R463): ErrorCode Busy until stage 1 runs, and over DOE until the link is config-ready. -/
def execSpdmRequest (viaDoe : Bool) (r : SpdmReq) (s : State) : Host.Outcome State Fault Refusal :=
  live s fun s =>
    if stage s ≠ 4 ∨ (viaDoe ∧ !(linkRec s 0).ready) then emit s (.mgmt "SPDM_ERROR" [0x03]) else spdmAnswer s r

/-- MCTP_REQUEST (R466, R487): over SMBus; a disabled target answers nothing, a good transaction ends a run of timeouts. -/
def execMctpRequest (kind : MctpKind) (body : List Byte) (s : State) : Host.Outcome State Fault Refusal :=
  live s fun s =>
    if flag s (Reg.GLB_SMB_STATUS) 8 then s
    else
      let s := setFld s (Reg.GLB_SMB_STATUS) 7 4 0
      match kind with
      | .control => emit s (.mgmt "MCTP_CONTROL" body)
      | .spdm => if stage s = 4 then emit s (.mgmt "MCTP_SPDM" body) else emit s (.mgmt "SPDM_ERROR" [0x03])
      | .pldmFwUpdate => emit s (.mgmt "MCTP_PLDM" body)
      | .other => if s.cores.fwReady then emit s (.mgmt "MCTP_SERVED" body) else emit s (.mgmt "MCTP_NOT_READY" [0x04])

/-- ATTEST_GET: a nonce of 32 bytes (the SPDM nonce; assumption 18, PRESUMED); the signed measurements. -/
def attestBody : OpBody where
  lenOk := slots 4
  run c s :=
    let (m, s) := signedMeasurements s c.params
    grant s [] m

/-- ATTEST_GET (R463). -/
def execAttestGet (pf : Nat) (buf : ParamBuf) (s : State) : Host.Outcome State Fault Refusal :=
  joryen 0x0B02 attestBody pf buf s

/-! ## Flash and minimum versions (R457 to R459, R468) -/

/-- A flash's bytes from offset 0x10000 on with `b` written at `off` from there; bytes never written are erased. -/
def patchFlash (old : List Byte) (off : Nat) (b : List Byte) : List Byte :=
  (old ++ List.replicate (off - old.length) 0xFF).take off ++ b ++ old.drop (off + b.length)

/-- FW_WRITE: flash, offset, length, bytes; the protected block is refused. -/
def fwWriteBody : OpBody where
  lenOk := slotsThen 3 2 1
  run c s :=
    let f := slot c.params 0
    let off := slot c.params 1
    checked [(0, f < 2), (8, 0x10000 ≤ off && off < 2 ^ 32)] s fun _ =>
      grant { s with boot := { s.boot with
        flash := tset s.boot.flash f (patchFlash (tgetD s.boot.flash f []) (off - 0x10000) (c.params.drop 24)) } }

/-- FW_WRITE (R458). -/
def execFwWrite (pf : Nat) (buf : ParamBuf) (s : State) : Host.Outcome State Fault Refusal :=
  joryen 0x0B00 fwWriteBody pf buf s

/-- A command under way ends without its event (R368, R370, R371): a grade transition goes by R35, a unit under test
stays FAILED, and what had committed goes on without the command. -/
def endRunning (s : State) (pf : Nat) : State :=
  match (chanOf s pf).cmd with
  | none => s
  | some c =>
    if c.phase ≠ .working then s
    else if hdrOpcode c.hdr = 0x0002 then abortGradeSet s pf
    else if hdrOpcode c.hdr = 0x0322 then
      (List.range 10).foldl (fun s p => if pipeState s p = 1 then setRole s p 4 0xF else s) s
    else if hdrOpcode c.hdr = 0x060A then
      (List.range 9).foldl (fun s n => if laneState s n = 1 then setLane s n 4 0xF else s) s
    else if hdrOpcode c.hdr = 0x0901 then { s with dry := { s.dry with domCmd := none } }
    else s

/-- The reply of a command that an abort or a restart ends before its checks or before its event. -/
def endedReply (c : Running) (status : Nat) : Reply := { status := status, committed := c.committed }

/-- A running command ends as the pair restarts: one whose reply is settled keeps it, any other gets INTERNAL_FAULT. -/
def faultCommand (s : State) (pf : Nat) : State :=
  match (chanOf s pf).cmd with
  | none => s
  | some c =>
    match c.phase with
    | .settled _ => s
    | _ =>
      modChan (endRunning s pf) pf fun ch => { ch with
        cmd := some { c with phase := .settled (endedReply c stInternal) } }

/-- The management pair restarts its firmware on a command of PF `pf` (R401, R468): the commands of the other channels end
under R370. -/
def restartFirmware (s : State) (pf : Nat) : State :=
  (List.range 8).foldl (fun s i => if i = pf then s else faultCommand s i)
    (setFld { s with cores := { s.cores with fwReady := false } } (Reg.MGMT_STATUS) 9 8 1)

/-- What FW_ACTIVATE verifies: the management image of a flash. -/
def verifyFlash (b : BootState) (f : Nat) : Except Nat (List Byte) :=
  match tget b.flash f with
  | none => .error 0x01
  | some d =>
    if !dirFormat d then .error 0x02
    else match imageOf d 2 with
      | none => .error 0x02
      | some i => match verifyImage b 2 i with
        | some code => .error code
        | none => .ok i

/-- FW_ACTIVATE: flash. -/
def fwActivateBody : OpBody where
  lenOk := slots 1
  run c s :=
    let f := slot c.params 0
    checked [(0, f < 2)] s fun _ =>
      match verifyFlash s.boot f with
      | .error code =>
        .finish (refuse stVerifyFailed code) (setFld (setFld s (Reg.BOOT_STATUS) 31 24 code) (Reg.BOOT_STATUS) 19 18 f)
      | .ok i => grant (restartFirmware { s with boot := { s.boot with images := tset s.boot.images 2 i } } c.pf)

/-- FW_ACTIVATE (R468). -/
def execFwActivate (pf : Nat) (buf : ParamBuf) (s : State) : Host.Outcome State Fault Refusal :=
  joryen 0x0B01 fwActivateBody pf buf s

/-- Overwrite the copy with the lower SEQ of a flash's minimum-version record (R459); a copy that is not valid is the
lower one. -/
def writeVer (t : Tab VerRec) (f v0 v1 : Nat) : Tab VerRec :=
  let seq := fun i => ((tget t (2 * f + i)).map fun (r : VerRec) => r.seq + 1).getD 0
  let i := if seq 1 < seq 0 then 1 else 0
  tset t (2 * f + i) { seq := max (seq 0) (seq 1), stage1 := v0, mgmt := v1 }

/-- MINVER_SET: MIN_SVN_STAGE1, MIN_SVN_MGMT, REVOKE_MASK. -/
def minverBody : OpBody where
  lenOk := slots 3
  run c s :=
    let b := s.boot
    let v0 := slot c.params 0
    let v1 := slot c.params 1
    let m := slot c.params 2
    let svn := fun t => imgSvn (tgetD b.images t [])
    checked [(0, minVer b 0 ≤ v0 && v0 ≤ svn 1), (8, minVer b 1 ≤ v1 && v1 ≤ svn 2),
        (16, m < 16 && b.images.all fun i => m / 2 ^ imgKey i.2 % 2 == 0)] s fun _ =>
      let revoked := (List.range 4).foldl (fun l k => if m / 2 ^ k % 2 = 1 then insNat k l else l) b.fuses.revoked
      grant (showMinVer { s with boot := { b with
        verRecs := writeVer (writeVer b.verRecs 0 v0 v1) 1 v0 v1
        fuses := { b.fuses with revoked := revoked } } })

/-- MINVER_SET (R459). -/
def execMinverSet (pf : Nat) (buf : ParamBuf) (s : State) : Host.Outcome State Fault Refusal :=
  joryen 0x0B03 minverBody pf buf s

/-- FW_QUERY: VERSION of the images in use, TYPE 1 to 3, and of those in flash A and flash B, 4 bytes each, 0 where there
is none. -/
def fwQueryBody : OpBody where
  lenOk := noParams
  run _ s :=
    let inUse := fun t => imgVersion (tgetD s.boot.images t [])
    let inFlash := fun f t => imgVersion ((imageOf (tgetD s.boot.flash f []) t).getD [])
    grant s [] (([1, 2, 3].flatMap fun t => toLe 4 (inUse t)) ++
      [0, 1].flatMap fun f => [1, 2, 3].flatMap fun t => toLe 4 (inFlash f t))

/-- FW_QUERY (R373). -/
def execFwQuery (pf : Nat) (buf : ParamBuf) (s : State) : Host.Outcome State Fault Refusal :=
  joryen 0x0B04 fwQueryBody pf buf s

/-! ## The first second (R465, R466) -/

/-- FW_READY_SET (R465): the management pair has been released, and its firmware serves. -/
def execFwReadySet (s : State) : Host.Outcome State Fault Refusal :=
  live s fun s =>
    if flag s (Reg.MLD_KS_LOCK) 0 && fld s (Reg.MGMT_STATUS) 9 8 == 0 then
      { s with cores := { s.cores with fwReady := true } }
    else s

/-- The variant has the pipe. -/
def pipePresent (s : State) (p : Nat) : Bool := unitPresent s.variant (unitOf (pipeRoleReg p))

/-- The state a pipe and a lane take at the boot BIST: ACTIVE, or WARM_SPARE for the spares. -/
def bootPipes (s : State) : State :=
  (List.range 10).foldl (fun s p =>
    if pipePresent s p then setRole s p (if p < 8 then 3 else 2) (if p < 8 then p else 0xF) else s) s
def bootLanes (s : State) : State :=
  (List.range 9).foldl (fun s n => setLane s n (if n < 8 then 3 else 2) (laneHome s.variant n)) s

/-- SQUELCH_LIFT (R465, R466): the boot tests have ended, with a bit per pipe (0 to 9) and lane (10 to 18) that says
whether it passed; held writes of PORT_EN take effect. -/
def squelchLift (s : State) (pass : Nat) : State :=
  let ok := fun i => pass / 2 ^ i % 2 == 1
  let s := bootLanes (bootPipes { s with pkt := { s.pkt with squelched := false } })
  let s := (List.range 10).foldl (fun s p =>
    if ok p || !pipePresent s p then s else pipeFail (hwSet s (Reg.PIPE_FAULT p) 0 7 0) p) s
  let s := (List.range 9).foldl (fun s n => if ok (10 + n) then s else laneFail s n .bist) s
  (List.range (macCount s.variant)).foldl (fun s m =>
    match (portOf s m).heldEn with
    | none => s
    | some en =>
      let s := modPort s m fun p => { p with heldEn := none }
      if en then enablePort s m else if portEn s m then disablePort s m else s) s

/-- SQUELCH_LIFT (R466). -/
def execSquelchLift (pass : Nat) (s : State) : Host.Outcome State Fault Refusal :=
  live s fun s => if s.pkt.squelched && s.cores.fwReady then squelchLift s pass else s

/-! ## Lines stuck low (R487, R482) -/

/-- SMBUS_TIMEOUT (R487): after 8 in a row the target is disabled and the fault reported to PF 0. -/
def execSmbusTimeout (s : State) : Host.Outcome State Fault Refusal :=
  live s fun s =>
    let a := Reg.GLB_SMB_STATUS
    if flag s a 8 then s
    else
      let n := fld s a 7 4 + 1
      let s := setFld (hwSet s a 0 7 0) a 7 4 n
      if n < 8 then s
      else emit (logErr (hwSet (setFlag s a 8 true) a 1 15 8) 0x0002 2 0x000 [n]) (.pcie "SMBUS_FAULT" 0 n)

/-- SMB_ENABLE. -/
def smbEnableBody : OpBody where
  lenOk := noParams
  run _ s := grant (setFld (setFlag s (Reg.GLB_SMB_STATUS) 8 false) (Reg.GLB_SMB_STATUS) 7 4 0)

/-- SMB_ENABLE (R487). -/
def execSmbEnable (pf : Nat) (buf : ParamBuf) (s : State) : Host.Outcome State Fault Refusal :=
  joryen 0x0004 smbEnableBody pf buf s

/-- The record of a module. -/
def modModule (s : State) (mac : Nat) (f : Module → Module) : State :=
  { s with boot := { s.boot with modules := tmod s.boot.modules mac {} f } }

/-- MODULE_BUS_TIMEOUT (R487): management firmware sends a bus clear, and after 8 marks the module unreachable. -/
def execModuleBusTimeout (mac : Nat) (s : State) : Host.Outcome State Fault Refusal :=
  within (mac < macCount s.variant) (live s fun s =>
    if !s.cores.fwReady || (tgetD s.boot.modules mac {}).unreachable then s
    else
      let n := (tgetD s.boot.modules mac {}).timeouts + 1
      let s := emit (modModule s mac fun x => { x with timeouts := n }) (.mgmt "MODULE_BUS_CLEAR" (toLe 1 mac))
      if n < 8 then s else logErr (modModule s mac fun x => { x with unreachable := true }) 0x0304 2 (0x300 + mac) [mac])

/-- MODULE_INT_STORM (R487): management firmware masks the pin and polls. -/
def execModuleIntStorm (mac : Nat) (s : State) : Host.Outcome State Fault Refusal :=
  within (mac < macCount s.variant) (live s fun s =>
    if s.cores.fwReady then modModule s mac fun x => { x with masked := true } else s)

/-- VDD_IO_LOSS (R482): both bypasses close, whatever the state of the logic. -/
def execVddIoLoss (s : State) : Host.Outcome State Fault Refusal :=
  always s fun s => setRingState (ringClose s) 0

end Sys2Proof.Machine
end

