-- ==== Sys2Proof/Machine/Observe.lean ====
section
/-! DEFINITION. Observability and freeze (R488 to R512): performance counters and their snapshot, tagging, trace sources,
the error log, debug unlock, the freeze with its triggers, and the JTAG instructions but DBG_ACCESS. -/

namespace Sys2Proof.Machine

/-! ## Counters (R489 to R494) -/

/-- PMU_OVERFLOW (R493): an enabled counter of a unit wraps from 2^48 - 1 to 0. -/
def execPmuOverflow (unitBase ctr : Nat) (s : State) : Host.Outcome State Fault Refusal :=
  within (unitHasPmu s.variant (unitOf unitBase) && offsetOf unitBase == 0 && ctr < 8) (live s fun s =>
    let u := unitOf unitBase
    if flag s (pmuEvsel u ctr) 31 then pmuWrap (wr64 s (pmuCnt u ctr) 0) u ctr else s)

/-- The address lies in a 48-bit counter of BAR 0 (R494). -/
def isCounter (v : Variant) (a : Nat) : Bool :=
  match rowOf v a with
  | some (r, _) => r.kind == .counter
  | none => false

/-- PMU_SNAP.VIEW shows the snapshot copies. -/
def snapView (s : State) : Bool := flag s (Reg.PMU_SNAP) 1

/-- A write of PMU_SNAP (R494): SNAPSHOT copies every counter and sets VIEW; otherwise VIEW takes the value written. -/
def writeSnap (s : State) (v : Word) : State :=
  if bits v 0 0 = 1 then
    let s := { s with obs := { s.obs with snap := s.regs.filter fun w => isCounter s.variant w.1 } }
    setFld (setFlag s (Reg.PMU_SNAP) 1 true) (Reg.PMU_SNAP) 31 16 (fld s (Reg.PMU_SNAP) 31 16 + 1)
  else setFlag s (Reg.PMU_SNAP) 1 (bits v 1 1 == 1)

/-- PMU_SNAPSHOT (R494). -/
def execPmuSnapshot (m : Master) (v : Word) (s : State) : Host.Outcome State Fault Refusal :=
  onWrite s m fun s => writeSnap s v

/-- PMU_VIEW_CLEAR (R494). -/
def execPmuViewClear (m : Master) (v : Word) (s : State) : Host.Outcome State Fault Refusal :=
  onWrite s m fun s => writeSnap s v

/-- PMU_CFG: unit ([11:8] section, [7:0] unit), counter, event as a PMU_EVSEL word, filter as a PMU_FILT word. A unit that
BX has not is an absent object (R3). -/
def pmuCfgBody : OpBody where
  lenOk := slots 4
  objs c s := !(unitHasPmu .ax (slot c.params 0)) || unitHasPmu s.variant (slot c.params 0)
  run c s :=
    let u := slot c.params 0
    let i := slot c.params 1
    checked [(0, unitHasPmu s.variant u), (8, i < 8), (16, slot c.params 2 < 2 ^ 32), (24, slot c.params 3 < 2 ^ 32)] s
      fun _ =>
        let s := regWrite s (pmuEvsel u i) (BitVec.ofNat 32 (slot c.params 2))
        grant (regWrite s (pmuEvsel u i + 4) (BitVec.ofNat 32 (slot c.params 3)))

/-- PMU_CFG (R490). -/
def execPmuCfg (pf : Nat) (buf : ParamBuf) (s : State) : Host.Outcome State Fault Refusal :=
  joryen 0x0A00 pmuCfgBody pf buf s

/-! ## Tagging (R495, R496) -/

/-- A core source tags an instruction and writes its TAG_INSN record, whose content the model's commands do not show. -/
def tagInsn (s : State) (c : Nat) : State :=
  if coreTakes s c && (List.range 8).any fun t => (threadOf s c t).st == 1 then
    let (b, s) := freeBytes s 4
    tracePush s c (recHead 0x07 2 c 0 ++ b.take 28)
  else s

/-- TAG_SELECT (R495): the interval of a source ends. A pipe tags the next packet it starts (R495). -/
def execTagSelect (src : Nat) (s : State) : Host.Outcome State Fault Refusal :=
  within (src < 74) (live s fun s =>
    if !flag s (Reg.TRC_TAG src) 31 then s
    else if src < 64 then tagInsn s src
    else modSrc s src fun t => { t with owed := true })

/-! ## Trace (R497 to R501) -/

/-- A write of TRC_CTL (R497): EN = 1 with a destination that is not allowed is ignored and sets CFG_ERR. A write that
enables the source starts its buffer anew. -/
def writeTrcCtl (s : State) (src : Nat) (v : Word) : State :=
  let a := Reg.TRC_CTL src
  let was := flag s a 31
  if bits v 31 31 = 1 ∧ !traceDestOk s src v then hwSet s (Reg.TRC_STATUS src) 2 15 8
  else
    let s := regWrite s a v
    if !was && flag s a 31 then setFlag (wr s (Reg.TRC_WPTR src) 0) (Reg.TRC_STATUS src) 1 false else s

/-- TRC_CTL_WRITE (R497). -/
def execTrcCtlWrite (m : Master) (src : Nat) (v : Word) (s : State) : Host.Outcome State Fault Refusal :=
  within (src < 74) (onWrite s m fun s => writeTrcCtl s src v)

/-- TRC_CFG: source, buffer (an SPM bank, or the base of an HBM range of TRC_SIZE), mode as a TRC_CTL word. A core
that BX has not is an absent object (R3). -/
def trcCfgBody : OpBody where
  lenOk := slots 3
  objs c s := 64 ≤ slot c.params 0 || slot c.params 0 < 8 * quireCount s.variant
  run c s :=
    let src := slot c.params 0
    let b := slot c.params 1
    let v : Word := BitVec.ofNat 32 (slot c.params 2)
    let hbm := bits v 29 29 == 1
    checked [(0, src < 74), (8, if hbm then b % 4096 == 0 else b < 256), (16, slot c.params 2 < 2 ^ 32)] s fun _ =>
      if hbm then grant (writeTrcCtl (wr64 s (Reg.TRC_HBM_BASE src) b) src v)
      else grant (writeTrcCtl s src (putBits v 7 0 b))

/-- TRC_CFG (R497). -/
def execTrcCfg (pf : Nat) (buf : ParamBuf) (s : State) : Host.Outcome State Fault Refusal :=
  joryen 0x0A01 trcCfgBody pf buf s

/-- TRACE_RECORD_WRITE (R498). -/
def execTraceRecordWrite (src : Nat) (s : State) : Host.Outcome State Fault Refusal :=
  within (src < 74) (liveMem s fun s => traceOut s src)

/-- CORE_IDLE_ENTRY (R501): no thread of the core has been ready for 256 cycles. -/
def execCoreIdleEntry (core : Nat) (s : State) : Host.Outcome State Fault Refusal :=
  within (core < 8 * quireCount s.variant) (liveMem s fun s =>
    if coreTakes s core && !((List.range 8).any fun t => (threadOf s core t).st == 1) then lpEnter s core 1 else s)

/-! ## Error log (R502, R503) -/

/-- The newest record of a unit and code that is still in the ring. -/
def newestRec (s : State) (e : ErrEvent) : Option (Nat × ErrRec) :=
  s.obs.errRecs.foldl (fun m p =>
    if p.2.ev.unit = e.unit ∧ p.2.ev.code = e.code then
      match m with
      | none => some p
      | some q => if q.2.seq < p.2.seq then some p else m
    else m) none

/-- The event is coalesced into a record (R503). -/
def coalesces (e : ErrEvent) (r : ErrRec) : Bool := e.cls ≤ 1 && e.time.toNat < r.ev.time.toNat + 2000000

/-- Write a new record (R502): its slot, SEQ, the interrupt of GLB_ERR_CFG, and the ERRLOG trigger (R507). -/
def newRecord (s : State) (e : ErrEvent) : State :=
  let seq := (rd s (Reg.GLB_ERR_SEQ)).toNat
  let s := { s with obs := { s.obs with errRecs := tset s.obs.errRecs (seq % 256) { seq := seq, ev := e, count := 1 } } }
  let s := wr s (Reg.GLB_ERR_SEQ) (BitVec.ofNat 32 (seq + 1))
  let s := if flag s (Reg.GLB_ERR_CFG) 31 then signal s 0 (fld s (Reg.GLB_ERR_CFG) 10 0) else s
  if fld s (Reg.FRZ_CFG) 10 8 ≤ e.cls then raiseTrig s 2 else s

/-- Take the event at the head of the input queue. -/
def dequeueErr (s : State) : State :=
  match s.obs.errQ with
  | [] => s
  | e :: rest =>
    let s := { s with obs := { s.obs with errQ := rest } }
    match newestRec s e with
    | some (k, r) =>
      if coalesces e r then
        { s with obs := { s.obs with errRecs := tset s.obs.errRecs k { r with count := min 255 (r.count + 1) } } }
      else newRecord s e
    | none => newRecord s e

/-- ERRLOG_DEQUEUE (R502). -/
def execErrlogDequeue (s : State) : Host.Outcome State Fault Refusal := live s dequeueErr

/-- The 64 bytes of a record (R503). -/
def recordBytes (r : ErrRec) : List Byte :=
  toLe 4 r.seq ++ toLe 2 r.ev.code ++ toLe 1 r.ev.cls ++ toLe 1 r.count ++ toLe 8 r.ev.time.toNat ++
  toLe 2 r.ev.unit ++ toLe 2 r.ev.fid ++ [0, 0, 0, 0] ++ (List.range 5).flatMap fun i => toLe 8 (r.ev.details.getD i 0).toNat

/-- The bytes of a slot; one never written reads 0. -/
def errSlot (s : State) (i : Nat) : List Byte :=
  match tget s.obs.errRecs (i % 256) with
  | some r => recordBytes r
  | none => List.replicate 64 0

/-- ERRLOG_READ: first record by SEQ, count; the slots of those records. -/
def errlogReadBody : OpBody where
  lenOk := slots 2
  run c s :=
    let n := slot c.params 1
    checked [(0, slot c.params 0 < 2 ^ 32), (8, n ≤ 256)] s fun _ =>
      grant s [] ((List.range n).flatMap fun i => errSlot s (slot c.params 0 + i))

/-- ERRLOG_READ (R502). -/
def execErrlogRead (pf : Nat) (buf : ParamBuf) (s : State) : Host.Outcome State Fault Refusal :=
  joryen 0x0A02 errlogReadBody pf buf s

/-! ## Debug unlock (R505, R506) -/

/-- DBG_CHALLENGE as bytes. -/
def challengeBytes (s : State) : List Byte := (List.range 12).flatMap fun w => toLe 4 (rd s (Reg.DBG_CHALLENGE w)).toNat

/-- DBG_UNLOCK: the public key in 96 bytes, then the signature in 96. -/
def dbgUnlockBody : OpBody where
  lenOk := slots 24
  run c s :=
    let key := c.params.take 96
    let good := decide (tget s.boot.keys 3 = some (sha384 key)) &&
      Config.ecdsaVerify key (sha384 (challengeBytes s ++ toLe 8 s.boot.fuses.serial)) (c.params.drop 96)
    let a := Reg.DBG_STATUS
    let s := newChallenge (setFld s a 15 8 (min 255 (fld s a 15 8 + 1)))
    if good then
      grant (logErr { s with obs := { s.obs with unlocked := true } } 0x0A02 0 0xA18 [leAt (sha384 key) 0 8])
    else .finish { status := stVerifyFailed } s

/-- DBG_UNLOCK (R505). -/
def execDbgUnlock (pf : Nat) (buf : ParamBuf) (s : State) : Host.Outcome State Fault Refusal :=
  joryen 0x0A05 dbgUnlockBody pf buf s

/-- A write of DBG_RELOCK (R506). -/
def writeRelock (s : State) (v : Word) : State :=
  if bits v 0 0 = 1 then { s with obs := { s.obs with unlocked := false } } else s

/-- DBG_RELOCK (R506). -/
def execDbgRelock (m : Master) (v : Word) (s : State) : Host.Outcome State Fault Refusal :=
  onWrite s m fun s => writeRelock s v

/-! ## Freeze (R507 to R510) -/

/-- FREEZE_ARM: the trigger mask and ERR_CLASS as FRZ_CFG lays them out. -/
def freezeArmBody : OpBody where
  lenOk := slots 1
  run c s :=
    let v := slot c.params 0
    checked [(0, v < 2048 && v / 32 % 8 == 0)] s fun _ =>
      if !flag s (Reg.GLB_PIN_LEVEL) 6 then .finish (refuse stNoResource 1) s
      else grant (wr { s with obs := { s.obs with armed := true } } (Reg.FRZ_CFG) (BitVec.ofNat 32 v))

/-- FREEZE_ARM (R507, R487). -/
def execFreezeArm (pf : Nat) (buf : ParamBuf) (s : State) : Host.Outcome State Fault Refusal :=
  joryen 0x0A03 freezeArmBody pf buf s

/-- FREEZE_DISARM. -/
def freezeDisarmBody : OpBody where
  lenOk := noParams
  run _ s := grant { s with obs := { s.obs with armed := false } }

/-- FREEZE_DISARM (R507): a trigger already raised prevails (R509). -/
def execFreezeDisarm (pf : Nat) (buf : ParamBuf) (s : State) : Host.Outcome State Fault Refusal :=
  joryen 0x0A04 freezeDisarmBody pf buf s

/-- The triggers accepted: FREEZE_N while the freeze is armed with PIN in its mask, and those raised inside. -/
def trigsIn (s : State) (b : Nat) : Nat :=
  (if s.obs.armed && flag s (Reg.FRZ_CFG) 0 then b % 2 else 0) ||| (b &&& s.obs.trig)

/-- The device freezes (R508): time and triggers are latched, the bypasses close, the outputs go quiet, the HBM enters
self-refresh, the host links go down, and the grade is FROZEN. -/
def freeze (s : State) (b : Nat) : State :=
  let s := { s with obs := { s.obs with
    latched := some (s.deviceTime, b, s.grade.cur, s.grade.target.isSome)
    trig := 0 } }
  let s := setRingState (ringClose s) 0
  let s := emit (emit s (.pin "PPS_OUT_0" false)) (.pin "PPS_OUT_1" false)
  let s := (List.range (hbmCount s.variant)).foldl (fun s n => setFlag s (Reg.HBM_STATUS n) 3 true) s
  let s := { s with host := { s.host with links := tmap s.host.links fun _ l => { l with up := false } } }
  { s with grade := { s.grade with cur := .frozen, target := none, byPf := none, committed := false } }

/-- FREEZE_TRIGGER (R508). -/
def execFreezeTrigger (b : Nat) (s : State) : Host.Outcome State Fault Refusal :=
  live s fun s => if trigsIn s b = 0 then s else freeze s (trigsIn s b)

/-! ## JTAG (R511) -/

/-- The device is frozen. -/
def isFrozen (s : State) : Bool := s.power == .run && s.grade.cur == .frozen

/-- What the 1-bit bypass register shifts out. -/
def bypassOut (l : List Bool) : List Bool := (false :: l).take l.length

/-- `n` free bits. -/
def freeBits (s : State) : Nat → List Bool × State
  | 0 => ([], s)
  | n + 1 =>
    let (v, s) := free s
    let (l, s) := freeBits s n
    (v.getLsbD 0 :: l, s)

/-- IDCODE: 0xB320_05D3, least significant bit first. -/
def idcodeBits : List Bool := (List.range 32).map fun i => (0xB32005D3 : Nat).testBit i

/-- IDCODE (R511). -/
def execIdcode (s : State) : Host.Outcome State Fault Refusal := always s fun s => emit s (.tdo idcodeBits)

/-- SAMPLE_PRELOAD (R511): the levels of the balls, which are free values, come out while new bits go in. -/
def execSamplePreload (l : List Bool) (s : State) : Host.Outcome State Fault Refusal :=
  always s fun s =>
    let (b, s) := freeBits s l.length
    emit { s with obs := { s.obs with scan := l } } (.tdo b)

/-- EXTEST (R511): the boundary scan drives the balls while POR_N is low or the device is frozen; otherwise BYPASS. -/
def execExtest (s : State) : Host.Outcome State Fault Refusal :=
  always s fun s =>
    if s.power == .porLow || isFrozen s then
      emits s ((List.range s.obs.scan.length).map fun i => .pin "BOUNDARY_SCAN" (s.obs.scan.getD i false))
    else emit s (.tdo [false])

/-- BYPASS (R511). -/
def execBypass (l : List Bool) (s : State) : Host.Outcome State Fault Refusal :=
  always s fun s => emit s (.tdo (bypassOut l))

/-- FRZ_REGION (R511): adds a range of a stack's 36 GB (R2), up to 16; length 0 clears the list. -/
def execFrzRegion (dr : BitVec 97) (s : State) : Host.Outcome State Fault Refusal :=
  always s fun s =>
    let stack := dr.toNat / 2 ^ 96
    let off := dr.toNat / 2 ^ 48 % 2 ^ 48
    let len := dr.toNat % 2 ^ 48
    if !isFrozen s then s
    else if len = 0 then { s with obs := { s.obs with regions := [] } }
    else if off % 4096 = 0 ∧ len % 4096 = 0 ∧ stack < hbmCount s.variant ∧ off + len ≤ hbmBytes ∧
        s.obs.regions.length < 16 then
      { s with obs := { s.obs with regions := s.obs.regions ++ [(stack, off, len)] } }
    else s

/-! ## Capture (R512) -/

/-- A frame of the stream: header, data, trailer with the frame's number. -/
def dcapFrame (num kind unit : Nat) (ws : List DWord) : List DWord :=
  let body := BitVec.ofNat 64 (0xA5 * 2 ^ 56 + kind * 2 ^ 48 + unit * 2 ^ 32 + ws.length) :: ws
  body ++ [BitVec.ofNat 64 (num * 2 ^ 32 + crc32c (body.flatMap fun w => toBe 8 w.toNat))]

/-- Cut data into pieces of at most 65,536 words. -/
def pieces : Nat → List DWord → List (List DWord)
  | 0, _ => []
  | n + 1, l => if l.isEmpty then [] else l.take 65536 :: pieces n (l.drop 65536)

/-- Frames numbered on from `num`: kind, unit and data of each. -/
def dcapFrames : Nat → List (Nat × Nat × List DWord) → List Out
  | _, [] => []
  | num, (k, u, ws) :: rest => .dcap k u (dcapFrame num k u ws) :: dcapFrames (num + 1) rest

/-- One content in as many frames as it takes. -/
def dcapPart (kind unit : Nat) (ws : List DWord) : List (Nat × Nat × List DWord) :=
  (pieces (ws.length / 65536 + 1) ws).map fun p => (kind, unit, p)

/-- Bytes as 64-bit little-endian words. -/
def wordsBy (n : Nat) (b : Nat → Byte) : List DWord :=
  (List.range n).map fun i => BitVec.ofNat 64 (leNat ((List.range 8).map fun k => b (8 * i + k)))

/-- The header frame. -/
def dcapHeader (s : State) : List DWord :=
  let (t, b, g, tr) := s.obs.latched.getD (s.deviceTime, 0, s.grade.cur, false)
  [(rd s (Reg.GLB_ID)).setWidth 64, t,
   BitVec.ofNat 64 (b % 64 + gradeCode g * 256 + tr.toNat * 2048 + s.obs.unlocked.toNat * 4096),
   (rd s (Reg.FRZ_CFG)).setWidth 64, 0, 0, 0, 0]

/-- The error log, slots 0 to 255, then GLB_ERR_SEQ. -/
def dcapLog (s : State) : List DWord :=
  ((List.range 256).flatMap fun i => wordsBy 8 fun k => (errSlot s i).getD k 0) ++ [(rd s (Reg.GLB_ERR_SEQ)).setWidth 64]

/-- The trace FIFOs: 16 bytes of each of 32 records of the 74 sources. -/
def dcapTrace (s : State) : List DWord :=
  (List.range 74).flatMap fun n => (List.range 32).flatMap fun i =>
    wordsBy 2 fun k => ((srcOf s n).fifo.getD i []).getD k 0

/-- The SRAM arrays in the order of R403: array number and words; array 1 is the scratchpad. -/
def sramArrays : List (Nat × Nat) :=
  [(0, 6291456), (1, 4194304), (2, 2097152), (3, 1048576), (4, 2097152), (5, 1048576)]

/-- The data of an array. -/
def sramData (s : State) (a n : Nat) : List DWord :=
  if a = 1 then wordsBy n fun k => spmByte s.mem (spmAddr (k / bankBytes) (k % bankBytes))
  else (List.range n).map (Config.sramWord a s.deviceTime.toNat)

/-- The contents of the stream in the order of R512; while UNLOCKED is 0 it ends after the error log. -/
def dcapContents (s : State) : List (Nat × Nat × List DWord) :=
  dcapPart 0 0xA20 (dcapHeader s) ++ dcapPart 4 0x001 (dcapLog s) ++
  (if s.obs.unlocked then
    (((List.range 0xC00).filter (unitPresent s.variant)).flatMap fun u =>
      dcapPart 1 u ((List.range (Config.scanLen u)).map (Config.scanWord u s.deviceTime.toNat))) ++
    dcapPart 5 0xA10 (dcapTrace s) ++
    (sramArrays.flatMap fun a => dcapPart 2 (if a.1 = 1 then 0x800 else Config.sramUnit a.1) (sramData s a.1 a.2)) ++
    s.obs.regions.flatMap fun r =>
      dcapPart 3 (0x810 + r.1) (wordsBy (r.2.2 / 8) fun k => hbmByte s.mem (hbmAddr r.1 (r.2.1 + k)))
  else [])

/-- FRZ_CAPTURE (R512): Update-DR with 1 starts the stream. -/
def execFrzCapture (dr : BitVec 1) (s : State) : Host.Outcome State Fault Refusal :=
  always s fun s => if isFrozen s && dr == 1 then emits s (dcapFrames 0 (dcapContents s)) else s

end Sys2Proof.Machine
end

