-- ==== Sys2Proof/Machine/Channel.lean ====
section
/-! DEFINITION. The command channel (R359 to R371): submission, refusal, abort and release; NOP, DEV_INFO and DEV_RESET;
and the lockstep pair whose firmware serves the channel (R401, R402). -/

namespace Sys2Proof.Machine

/-- The 64 bytes of CMD_HDR. -/
def chanHdr (s : State) (pf : Nat) : List Byte :=
  (List.range 16).flatMap fun w => toLe 4 (tgetD (chanOf s pf).hdr w 0).toNat

/-- Signal CMD_VEC (R359). -/
def chanSignal (s : State) (pf : Nat) : State :=
  let v := (chanOf s pf).vec
  if bits v 31 31 = 1 then signal s pf (bits v 10 0) else s

/-- Set DONE. -/
def setDone (s : State) (pf : Nat) : State :=
  chanSignal (modChan s pf fun ch => { ch with done := true, doneCnt := ch.doneCnt + 1 }) pf

/-- An abort completes: ABORTING is cleared and ABORT_DONE set (R368). -/
def endAbort (s : State) (pf : Nat) : State :=
  chanSignal (modChan s pf fun ch => { ch with aborting := false, abortDone := true, abortDoneCnt := ch.abortDoneCnt + 1 }) pf

/-- A write of GO (R360, R361). A command of an unknown opcode is settled at once (R365 step 1). -/
def submit (s : State) (pf : Nat) : State :=
  let ch := chanOf s pf
  let h := chanHdr s pf
  if ch.cmd.isSome || !s.cores.fwReady then
    modChan s pf fun ch => { ch with
      reject := BitVec.ofNat 32 (stBusy * 65536 + hdrTag h), rejected := true, rejectedCnt := ch.rejectedCnt + 1 }
  else
    let unknown := (opRow (hdrOpcode h)).isNone
    modChan s pf fun ch => { ch with
      reply := []
      cmd := some {
        hdr := h
        phase := if unknown then .settled { status := stBadOpcode } else .accepted
        isSealed := unknown && sealedBy none pf (hdrTarget h) false
        at' := s.deviceTime } }

/-- A write of CMD_SUBMIT. -/
def writeSubmit (s : State) (pf : Nat) (v : Word) : State := if bits v 0 0 = 1 then submit s pf else s

/-- CMD_SUBMIT (R360). -/
def execCmdSubmit (pf : Nat) (v : Word) (s : State) : Host.Outcome State Fault Refusal :=
  within (pf < 8) (live s fun s => onPage s pf fun s => writeSubmit s pf v)

/-- A write of CMD_ABORT (R368): a further one while ABORTING is 1 does nothing. -/
def writeAbort (s : State) (pf : Nat) (v : Word) : State :=
  if bits v 0 0 = 1 then modChan s pf fun ch => { ch with aborting := true } else s

/-- CMD_ABORT (R368). -/
def execCmdAbort (pf : Nat) (v : Word) (s : State) : Host.Outcome State Fault Refusal :=
  within (pf < 8) (live s fun s => onPage s pf fun s => writeAbort s pf v)

/-! ## Ending a command -/

/-- A host reset ends the command of a channel without a reply and resets the channel (R359, R371). -/
def killChannel (s : State) (pf : Nat) : State :=
  let s := endRunning s pf
  { s with chans := terase s.chans pf }

/-- The reply of a settled command under an abort (R368, R323): a refusal that came before the abort, or of a sealed
command, keeps its status. -/
def abortedReply (c : Running) (r : Reply) : Reply :=
  if r.status = stOk then { r with status := stAborted, committed := c.committed }
  else if c.late && !c.isSealed then endedReply c stAborted else r

/-- The 32 bytes of a reply (R363), as words. -/
def replyWords (h : List Byte) (r : Reply) (written : Nat) : List Word :=
  let shown := r.committed && (r.status == stAborted || r.status == stTimeout || r.status == stInternal)
  [BitVec.ofNat 32 (r.status + hdrOpcode h * 65536), BitVec.ofNat 32 (hdrTag h + shown.toNat * 65536),
   BitVec.ofNat 32 written] ++ (List.range 5).map fun i => r.details.getD i 0

/-- A reply whose output exceeds OUT_LEN is PARTIAL (R372). -/
def partialReply (h : List Byte) (r : Reply) : Reply :=
  if r.status = stOk ∧ hdrOutLen h < r.out.length then
    { r with status := stPartial, details := [BitVec.ofNat 32 r.out.length] }
  else r

/-- Release a reply (R363): the output is written, then the reply, then DONE is set. A DEV_RESET that was granted resets
the device then (R447). -/
def releaseReply (s : State) (pf : Nat) (c : Running) (r : Reply) : State :=
  let n := min r.out.length (hdrOutLen c.hdr)
  let s := if n = 0 then s else hostWrite s pf none (leAt c.hdr 24 8) (r.out.take n)
  let r' := partialReply c.hdr r
  let s := setDone (modChan s pf fun ch => { ch with cmd := none, reply := replyWords c.hdr r' n }) pf
  if hdrOpcode c.hdr = 0x0003 ∧ (r'.status = stOk ∨ r'.committed) then startDeviceReset s else s

/-- COMMAND_REPLY_RELEASE (R363): an unsealed reply; one under an abort is released by ABORT_DONE. -/
def execCommandReplyRelease (pf : Nat) (s : State) : Host.Outcome State Fault Refusal :=
  within (pf < 8) (liveReset s fun s =>
    let ch := chanOf s pf
    match ch.cmd with
    | some c =>
      match c.phase with
      | .settled r => if c.isSealed || ch.aborting then s else releaseReply s pf c r
      | _ => s
    | none => s)

/-- SEALED_REPLY_RELEASE (R322, R323): 40 µs after acceptance; an abort meanwhile is done with it. -/
def execSealedReplyRelease (pf : Nat) (s : State) : Host.Outcome State Fault Refusal :=
  within (pf < 8) (liveReset s fun s =>
    let ch := chanOf s pf
    match ch.cmd with
    | some c =>
      match c.phase with
      | .settled r =>
        if !c.isSealed then s
        else if ch.aborting then endAbort (releaseReply s pf c (abortedReply c r)) pf
        else releaseReply s pf c r
      | _ => s
    | none => s)

/-- ABORT_DONE (R368): the running command ends with its reply, or the idle channel's context is reset; a sealed command,
which the header tells where its checks have not run yet, waits for its own release. -/
def execAbortDone (pf : Nat) (s : State) : Host.Outcome State Fault Refusal :=
  within (pf < 8) (liveReset s fun s =>
    let ch := chanOf s pf
    if !ch.aborting then s
    else match ch.cmd with
      | none => endAbort (modChan s pf fun ch => { ch with hdr := [], rejected := false }) pf
      | some c =>
        match c.phase with
        | .settled r => if c.isSealed then s else releaseReply (endAbort s pf) pf c (abortedReply c r)
        | .accepted =>
          if sealedBy (opRow (hdrOpcode c.hdr)) pf (hdrTarget c.hdr) true then s else releaseReply (endAbort s pf) pf c (endedReply c stAborted)
        | .working =>
          if c.isSealed then s else releaseReply (endAbort (endRunning s pf) pf) pf c (endedReply c stAborted))

/-! ## NOP, DEV_INFO, DEV_RESET -/

/-- NOP. -/
def nopBody : OpBody where
  lenOk := noParams
  run _ s := grant s

/-- NOP (R373). -/
def execNop (pf : Nat) (buf : ParamBuf) (s : State) : Host.Outcome State Fault Refusal := joryen 0x0000 nopBody pf buf s

/-- The 256 bytes of DEV_INFO (R516). -/
def devInfo (s : State) : List Byte :=
  let img := fun t => tgetD s.boot.images t []
  toLe 4 (rd s (Reg.GLB_ID)).toNat ++ toLe 4 (rd s (Reg.GLB_CAP)).toNat ++
  toLe 4 (imgVersion (img 1)) ++ toLe 4 (imgSvn (img 1)) ++ toLe 4 (imgVersion (img 2)) ++ toLe 4 (imgSvn (img 2)) ++
  toLe 4 (imgVersion (img 3)) ++ toLe 4 (minVer s.boot 0) ++ toLe 4 (minVer s.boot 1) ++ toLe 8 s.boot.fuses.serial ++
  List.replicate 212 0

/-- DEV_INFO. -/
def devInfoBody : OpBody where
  lenOk := noParams
  run _ s := grant s [] (devInfo s)

/-- DEV_INFO (R516). -/
def execDevInfo (pf : Nat) (buf : ParamBuf) (s : State) : Host.Outcome State Fault Refusal :=
  joryen 0x0001 devInfoBody pf buf s

/-- DEV_RESET: the reset follows the reply. -/
def devResetBody : OpBody where
  lenOk := noParams
  run _ s := grant s

/-- DEV_RESET (R447). -/
def execDevReset (pf : Nat) (buf : ParamBuf) (s : State) : Host.Outcome State Fault Refusal :=
  joryen 0x0003 devResetBody pf buf s

/-! ## The management pair (R401, R402, R370) -/

/-- LOCKSTEP_MISMATCH (R401, R402): the pair is held; it restarts, or stays held after the fourth mismatch in 10 s. -/
def lockstep (s : State) (pc0 pc1 : DWord) : State :=
  let now := s.deviceTime.toNat
  let recent := now :: s.cores.mismatches.filter fun t => now ≤ t + 20000000000
  let held := 4 ≤ recent.length
  let s := hwSet (setFld s (Reg.MGMT_STATUS) 9 8 (if held then 2 else 1)) (Reg.MGMT_STATUS) 0 15 0
  let s := { s with cores := { s.cores with mismatches := recent, fwReady := false } }
  let s := (List.range 8).foldl faultCommand s
  raiseTrig (logErr s 0x0702 (if held then 3 else 2) 0x710 [pc0.toNat, pc1.toNat]) 3

/-- LOCKSTEP_MISMATCH (R401): of a pair that runs. -/
def execLockstepMismatch (pc0 pc1 : DWord) (s : State) : Host.Outcome State Fault Refusal :=
  live s fun s =>
    if flag s (Reg.MLD_KS_LOCK) 0 && fld s (Reg.MGMT_STATUS) 9 8 == 0 then lockstep s pc0 pc1 else s

/-- FIRMWARE_RESTART_DONE (R401). -/
def execFirmwareRestartDone (s : State) : Host.Outcome State Fault Refusal :=
  live s fun s =>
    if fld s (Reg.MGMT_STATUS) 9 8 = 1 then
      let s := setFld s (Reg.MGMT_STATUS) 9 8 0
      { s with cores := { s.cores with fwReady := true } }
    else s

end Sys2Proof.Machine
end

