-- ==== Sys2Proof/Machine/Queues.lean ====
section
/-! DEFINITION. Work queues (R328 to R358): doorbells, descriptor fetch and its checks, completion queues, and the commands
of group 0x02. -/

namespace Sys2Proof.Machine

/-! ## Descriptor checks (R335 to R339, R349) -/

def detReserved : Nat := 0x40
def detLength : Nat := 0x41
def detOpcode : Nat := 0x42
def detAlign : Nat := 0x43
def detGather : Nat := 0x44
def detIndex : Nat := 0x45

/-- The queue types that accept an opcode (R336). -/
def opTypes (op : Nat) : List Nat :=
  match op with
  | 0x01 => [0] | 0x02 => [1, 3]
  | 0x10 => [2] | 0x11 => [2] | 0x12 => [2] | 0x13 => [2] | 0x14 => [2] | 0x15 => [2]
  | 0x20 => [4] | 0x30 => [2, 4] | 0x31 => [0, 2, 4, 5] | 0x32 => [0, 2, 4] | 0x33 => [0, 2, 4] | 0x40 => [5]
  | _ => []

/-- The defined bits of each byte from byte 4 on (R336): offset, bytes, mask of the field. -/
def opFields (op : Nat) : List (Nat × Nat × Nat) :=
  let buf := [(4, 4, 2 ^ 32 - 1), (8, 8, 2 ^ 64 - 1)]
  let win := buf ++ [(16, 4, 2 ^ 32 - 1), (20, 8, 2 ^ 64 - 1)]
  match op with
  | 0x01 => buf ++ [(16, 2, 0x7FFF), (18, 1, 0x7)]
  | 0x02 => buf | 0x12 => buf | 0x40 => buf
  | 0x10 => win | 0x13 => win | 0x14 => win | 0x15 => win
  | 0x11 => win ++ [(28, 4, 2 ^ 32 - 1)]
  | 0x20 => [(8, 8, 2 ^ 64 - 1)]
  | 0x32 => [(4, 2, 0x3FF), (8, 4, 2 ^ 32 - 1)]
  | 0x33 => [(4, 2, 0xFFF), (6, 2, 0xFFFF)]
  | _ => []

/-- The defined FLAGS bits of an opcode. -/
def opFlags (op : Nat) : Nat := match op with | 0x01 => 7 | 0x32 => 1 | 0x33 => 1 | _ => 0

/-- A descriptor with every defined bit cleared: what is left is reserved. -/
def reservedLeft (raw : List Byte) : Nat :=
  let op := leAt raw 0 1
  let defined := (opFields op).map fun f => f.2.2 * 2 ^ (8 * f.1)
  let mask := 0xFF + opFlags op * 2 ^ 8 + 0x1F * 2 ^ 16 + defined.sum
  leAt raw 0 32 - (leAt raw 0 32 &&& mask)

/-- NUM_SGE must be 0 (R336). -/
def noList (op : Nat) : Bool := op == 0x14 || op == 0x15 || op == 0x20 || op == 0x40 || (0x30 ≤ op && op ≤ 0x33)

/-- The range of LENGTH of an opcode on a queue type with the port's MAX_FRAME (R337 to R339, R353). -/
def lenRange (op type frameMax : Nat) : Option (Nat × Nat) :=
  match op with
  | 0x01 => some (14, frameMax - 4)
  | 0x02 => some (if type = 3 then 0 else 64, 2 ^ 30)
  | 0x10 => some (0, 2 ^ 30) | 0x11 => some (0, 2 ^ 30) | 0x12 => some (0, 2 ^ 30)
  | 0x13 => some (1, 2 ^ 30)
  | 0x14 => some (8, 8) | 0x15 => some (8, 8)
  | 0x40 => some (64, 4160)
  | _ => none

/-- The alignment of ADDR (R335, R336, R339, R353). -/
def addrAlign (op sges : Nat) : Nat :=
  match op with
  | 0x14 => 8 | 0x15 => 8 | 0x20 => 64 | 0x40 => 64
  | _ => if sges = 0 then 1 else 16

/-- The checks of a descriptor's own fields, in the order of R349. -/
def checkDesc (raw : List Byte) (type frameMax : Nat) : Option Nat :=
  let op := leAt raw 0 1
  let sges := leAt raw 2 1 % 32
  if !(opTypes op).contains type then some detOpcode
  else if reservedLeft raw ≠ 0 then some detReserved
  else if (match lenRange op type frameMax with
      | some (lo, hi) => decide (leAt raw 4 4 < lo ∨ hi < leAt raw 4 4)
      | none => false) then some detLength
  else if leAt raw 8 8 % addrAlign op sges ≠ 0 ∧ (op < 0x30 ∨ op = 0x40) then some detAlign
  else if 16 < sges ∨ (noList op ∧ sges ≠ 0) then some detGather
  else none

/-- The element lengths of a gather list, or the check an element fails (R335). -/
def gatherLens : Nat → List Byte → Nat ⊕ Nat
  | 0, _ => .inl 0
  | k + 1, b =>
    if nonZero b 12 4 then .inr detReserved
    else if leAt b 8 4 = 0 then .inr detLength
    else match gatherLens k (b.drop 16) with
      | .inl n => .inl (n + leAt b 8 4)
      | .inr d => .inr d

/-- The checks of a descriptor's gather list. -/
def checkGather (k : Nat) (b : List Byte) (len : Nat) : Option Nat :=
  match gatherLens k b with
  | .inl n => if n = len then none else some detLength
  | .inr d => some d

/-- A job block's list of at most 16 elements that covers `n` bytes. -/
def checkJobList : Nat → List Byte → Nat → Option Nat
  | 0, _, n => if n = 0 then none else some detGather
  | k + 1, b, n =>
    if n = 0 then none
    else if nonZero b 12 4 then some detReserved
    else if leAt b 8 4 = 0 ∨ n < leAt b 8 4 then some detLength
    else checkJobList k (b.drop 16) (n - leAt b 8 4)

/-- The checks of a job block and its lists (R255, R265, R349). -/
def checkJob (b : List Byte) : Option Nat :=
  let code := jobCode b
  let seeds := code == 0x10 || code == 0x11
  if 8 ≤ leAt b 1 1 ∨ (jobFlag b 2 ∧ !seeds) ∨ 2 ^ 22 ≤ leAt b 36 4 ∨ nonZero b 60 4 then some detReserved
  else if 2 ^ 30 < jobSrcLen b ∨ ((code = 0x14 ∨ code = 0x15) ∧ 32768 < jobAadLen b) ∨
      ((code = 0x12 ∨ code = 0x13) ∧ (2 ^ 20 < jobSrcLen b ∨ jobSrcLen b % 64 ≠ 0)) then some detLength
  else
    let lists := b.drop 64
    (if jobFlag b 0 then checkJobList 16 lists (jobSrcLen b) else none).or
      (if jobFlag b 1 then checkJobList 16 (lists.drop (if jobFlag b 0 then 256 else 0)) (jobDstLen b) else none)

/-! ## Fetch (R331, R332) -/

/-- The grade lets the queue fetch (R27, R28, R517). -/
def gradeFetches (s : State) (q : Queue) : Bool := q.type == 5 || working s.grade.cur

/-- A frame of the queue is held at its source by back-pressure (R127): a frame of a transmit queue, or a packet of a
send queue's connection. A member copy is none: its stream waits on its own port (R73). -/
def sourceHeld (s : State) (qid : Nat) (q : Queue) : Bool :=
  let src : FrameSrc := match q.conn with
    | some n => { kind := 4, num := n }
    | none => { kind := 2, num := qid }
  (q.type == 0 || q.type == 2) &&
    (List.range 8).any fun m => (portOf s m).waiting.any fun f => !f.preload && !f.tagged && f.src == src

/-- Completions of the CQ find no room on chip (R346). -/
def cqStalled (s : State) (c : Nat) : Bool := match tget s.wq.cqs c with | some q => 64 ≤ q.held.length | none => false

/-- The queue may fetch its next entry. -/
def fetches (s : State) (qid : Nat) (q : Queue) : Bool :=
  (q.state == 1 || q.state == 2) && q.next != q.tail && q.entries.length < 64 && canRequest s q.fid &&
  !fnHalted s q.fid && !pageHeld s q.fid qid q.next && gradeFetches s q && !sourceHeld s qid q && !cqStalled s q.cq &&
  !(match (fnOf s q.fid).dirty with | some d => d.faulted | none => false)

/-- The buffers a descriptor names. -/
def descSge (raw list : List Byte) : List (Nat × Nat) :=
  let n := leAt raw 2 1 % 32
  if n = 0 then [(leAt raw 8 8, leAt raw 4 4)]
  else (List.range n).map fun i => (leAt list (16 * i) 8, leAt list (16 * i + 8) 4)

/-- A malformed entry (R351, R352): it completes with MALFORMED, and the function, or for the FW_CTRL ring the device,
halts. -/
def malformed (s : State) (qid : Nat) (q : Queue) (e : QEntry) (det : Nat) : State :=
  let s := modQ s qid fun q => { q with entries := q.entries ++ [{ e with state := .done 0x0A det [] 0 }] }
  if q.type = 5 then haltDevice s qid e.idx det else haltFn s q.fid false qid e.idx det

/-- The state in which a checked entry joins its queue: a HOST_RX buffer that reports drops is done at once (R344). -/
def entryState (q : Queue) (op : Nat) : EntryState :=
  if op = 0x02 ∧ q.type = 1 ∧ q.dropReport ∧ 0 < q.drops then .done 0x0B 0 (toLe 4 q.drops) 0 else .held

/-- Take a descriptor that was read (R349): its own checks first, then those of its list or block, which is read for it. -/
def takeDesc (s : State) (qid : Nat) (q : Queue) (raw : List Byte) (d : DescRead) : State :=
  let op := leAt raw 0 1
  let n := leAt raw 2 1 % 32
  let e : QEntry := { idx := q.next, op := op, flags := leAt raw 1 1, len := leAt raw 4 4, addr := leAt raw 8 8,
                      raw := raw, state := entryState q op }
  let failed := fun (r : ReadFail) => failRead s qid q.next r
  let s := modQ s qid fun q => { q with next := (q.next + 1) % qSize q }
  let add := fun (e : QEntry) => kick (modQ s qid fun q => { q with entries := q.entries ++ [e] }) q.fid
  match checkDesc raw q.type (maxFrame s q.mac) with
  | some det => malformed s qid q e det
  | none =>
    if op = 0x20 then
      match readOf d.block with
      | .inr r => failed r
      | .inl b =>
        match checkJob b with
        | some det => malformed s qid q e det
        | none => add { e with block := b }
    else if n ≠ 0 then
      match readOf d.list with
      | .inr r => failed r
      | .inl b =>
        match checkGather n b (leAt raw 4 4) with
        | some det => malformed s qid q e det
        | none => add { e with sge := descSge raw b }
    else add { e with sge := descSge raw [] }

/-- A descriptor of a connection's receive queue has come: what waited for it is placed, and a receive completion that was
due is written (R214, R215). -/
def serveRecv (s : State) (qid : Nat) : State :=
  match tget s.wq.queues qid with
  | some q =>
    (match q.conn with
     | some n => if q.type = 3 then
         kick (recvComplete (retryPackets s fun p => whConn p.hdr == n) n 512) q.fid
       else s
     | none => s)
  | none => s

/-- DESCRIPTOR_FETCH (R332): the queue reads and checks its next entry. -/
def execDescriptorFetch (qid : Nat) (d : DescRead) (s : State) : Host.Outcome State Fault Refusal :=
  live s fun s =>
    match tget s.wq.queues qid with
    | none => s
    | some q =>
      if !fetches s qid q then s
      else
        let s := dtuTouch s q.fid q.pasid (q.base + 32 * q.next)
        match readOf d.entry with
        | .inl raw => serveRecv (takeDesc s qid q raw d) qid
        | .inr r => failRead s qid q.next r

/-! ## Doorbells (R330, R347) -/

/-- A write of a queue doorbell. -/
def ringDoorbell (s : State) (fid idx : Nat) (v : Word) : State :=
  match qidOf s fid idx with
  | none => s
  | some qid =>
    match tget s.wq.queues qid with
    | none => s
    | some q =>
      let tail := bits v 15 0
      let bad := fun (det : Nat) => if q.type = 5 then haltDevice s qid tail det else haltFn s fid false qid tail det
      if q.state = 6 ∨ fnHalted s fid then s
      else if bits v 31 16 ≠ 0 then bad detReserved
      else if tail = q.tail then s
      else if qSize q ≤ tail ∨ (tail + qSize q - q.head) % qSize q < (q.tail + qSize q - q.head) % qSize q then bad detIndex
      else modQ s qid fun q => { q with tail := tail }

/-- QUEUE_DOORBELL (R330). -/
def execQueueDoorbell (fid idx : Nat) (v : Word) (s : State) : Host.Outcome State Fault Refusal :=
  within (fid < 4096 && idx < 1024) (live s fun s => onPage s fid fun s => ringDoorbell s fid idx v)

/-- A write of a CQ doorbell. -/
def ringCq (s : State) (fid idx : Nat) (v : Word) : State :=
  match cqidOf s fid idx with
  | none => s
  | some c =>
    match tget s.wq.cqs c with
    | none => s
    | some q =>
      let ci := bits v 15 0
      let n := cqSize q
      if fnHalted s fid then s
      else if bits v 31 17 ≠ 0 then haltFn s fid true c ci detReserved
      else if n ≤ ci ∨ (q.pi + n - q.ci) % n < (ci + n - q.ci) % n then haltFn s fid true c ci detIndex
      else
        let arm := bits v 16 16 == 1
        let s := modCq s c fun q => { q with ci := ci, armed := q.armed || arm, timer := q.timer && q.pi != ci }
        if arm then cqModerate s c else s

/-- CQ_DOORBELL (R347). -/
def execCqDoorbell (fid idx : Nat) (v : Word) (s : State) : Host.Outcome State Fault Refusal :=
  within (fid < 4096 && idx < 1024) (live s fun s => onPage s fid fun s => ringCq s fid idx v)

/-! ## Completion queues (R345 to R348) -/

/-- Completions that waited for room in a CQ's store join it (R346). -/
def joinStore (s : State) (c : Nat) : State :=
  (s.wq.queues.filter fun p => p.2.cq == c).foldl (fun s p => kick (flushQ s p.1) p.2.fid) s

/-- HELD_COMPLETION_WRITE (R346, R183). -/
def execHeldCompletionWrite (cqid : Nat) (s : State) : Host.Outcome State Fault Refusal :=
  live s fun s => joinStore (cqDrainOne s cqid) cqid

/-- SHADOW_WRITE (R345); one that fails translation halts the function, and its CQs are written no more (R311, R351). -/
def execShadowWrite (cqid : Nat) (translated : Bool) (s : State) : Host.Outcome State Fault Refusal :=
  live s fun s =>
    match tget s.wq.cqs cqid with
    | none => s
    | some q =>
      if q.dead || q.shadowPi == q.pi || !canRequest s q.fid then s
      else if translated then shadowWrite s cqid
      else
        let s := { s with wq := { s.wq with cqs := tmap s.wq.cqs fun _ c => if c.fid = q.fid then { c with dead := true } else c } }
        haltFn s q.fid true cqid q.pi 0

/-- MODERATION_TIMEOUT (R348). -/
def execModerationTimeout (cqid : Nat) (s : State) : Host.Outcome State Fault Refusal :=
  live s fun s =>
    match tget s.wq.cqs cqid with
    | none => s
    | some q => if q.timer then cqFire s cqid else s

/-! ## Commands of group 0x02 -/

/-- The MAC of a HOST_TX queue exists. -/
def macOk (s : State) (type mac : Nat) : Bool := type != 0 || 8 ≤ mac || mac < macCount s.variant

/-- Q_CREATE in the order of R333. -/
def qCreateBody : OpBody where
  lenOk := slots 11
  objs c s := macOk s (slot c.params 1) (slot c.params 7)
  own c _ := ownTarget c
  run c s :=
    let p := c.params
    let t := c.target
    let type := slot p 1
    let tx := type == 0
    let rx := type == 1
    let cq := cqidOf s t (slot p 5)
    let kindOf := fun (k : Option Nat) => (k.bind (tget s.wq.cqs)).map Cq.kind
    let tsq := if tx then (slotOpt p 6).bind (cqidOf s t) else none
    checked [(0, slot p 0 < 1024 && (qidOf s t (slot p 0)).isNone),
        (8, type ≤ 5 && (type != 5 || (t == 0 && !(s.wq.queues.any fun q => q.2.type == 5)))),
        (16, slot p 2 % 4096 == 0), (24, 6 ≤ slot p 3 && slot p 3 ≤ 16),
        (32, match slotOpt p 4 with | some x => x < 2 ^ 20 | none => true),
        (40, kindOf cq == some 0), (48, !tx || (slotOpt p 6).isNone || kindOf tsq == some 1),
        (56, !tx || slot p 7 < 8), (64, !tx || slot p 8 < 8), (72, !rx || slot p 9 ≤ 1), (80, !rx || slot p 10 ≤ 1)] s
      fun _ =>
        if !mayTake s t 1 1 then .finish (refuse stNoResource) s
        else
          match pickFree s 65536 fun i => (tget s.wq.queues i).isSome with
          | (none, s) => .finish (refuse stNoResource) s
          | (some qid, s) =>
            let q : Queue := { fid := t, loc := slot p 0, type := type, base := slot p 2, log2 := slot p 3,
                               pasid := slotOpt p 4, cq := cq.getD 0, tsq := tsq, mac := slot p 7, tc := slot p 8 % 8,
                               rxMeta := slot p 9 % 2, dropReport := slot p 10 == 1 }
            grant { s with wq := { s.wq with queues := tset s.wq.queues qid q } } [BitVec.ofNat 32 qid]

/-- Q_CREATE (R333). -/
def execQCreate (pf : Nat) (buf : ParamBuf) (s : State) : Host.Outcome State Fault Refusal :=
  joryen 0x0200 qCreateBody pf buf s

/-- The queue that slot 0 names. -/
def namedQ (c : Ctx) (s : State) : Option Nat := qidOf s c.target (slot c.params 0)

/-- Q_STOP: local queue. -/
def qStopBody : OpBody where
  lenOk := slots 1
  objs c s := (namedQ c s).isSome
  own c _ := ownTarget c
  run c s := match namedQ c s with
    | some qid => grant (kick (stopQueue s qid) c.target)
    | none => grant s

/-- Q_STOP (R355). -/
def execQStop (pf : Nat) (buf : ParamBuf) (s : State) : Host.Outcome State Fault Refusal := joryen 0x0201 qStopBody pf buf s

/-- The last outstanding entry of a stopping queue has completed: it is STOPPED, or freed (R355, R357). -/
def stopDone (s : State) (qid : Nat) : State :=
  match tget s.wq.queues qid with
  | none => s
  | some q =>
    if !q.entries.isEmpty then s
    else if q.destroy then { s with wq := { s.wq with queues := terase s.wq.queues qid } }
    else modQ s qid fun q => { q with state := 5, head := q.tail, next := q.tail }

/-- QUEUE_STOP_DONE (R355): entries posted since the stop complete too. -/
def execQueueStopDone (qid : Nat) (s : State) : Host.Outcome State Fault Refusal :=
  live s fun s =>
    match tget s.wq.queues qid with
    | none => s
    | some q => if q.state = 4 then kick (stopDone (flushQ (absorbPosted s qid) qid) qid) q.fid else s

/-- Q_RESUME: local queue. -/
def qResumeBody : OpBody where
  lenOk := slots 1
  objs c s := (namedQ c s).isSome
  own c _ := ownTarget c
  run c s := match namedQ c s with
    | none => grant s
    | some qid =>
      let st := ((tget s.wq.queues qid).map Queue.state).getD 0
      if fnHalted s c.target ∨ st = 6 then .finish (refuse stWrongGrade (gradeCode s.grade.cur)) s
      else if st = 5 ∨ st = 3 then grant (kick (modQ s qid fun q => { q with state := 1 }) c.target)
      else .finish (badParam 0) s

/-- Q_RESUME (R356). -/
def execQResume (pf : Nat) (buf : ParamBuf) (s : State) : Host.Outcome State Fault Refusal :=
  joryen 0x0202 qResumeBody pf buf s

/-- Q_DESTROY: local queue. -/
def qDestroyBody : OpBody where
  lenOk := slots 1
  objs c s := (namedQ c s).isSome
  own c _ := ownTarget c
  run c s := match namedQ c s with
    | none => grant s
    | some qid =>
      let s := stopQueue (modQ s qid fun q => { q with destroy := true }) qid
      match tget s.wq.queues qid with
      | some q => grant (kick (if q.state = 6 then s else stopDone s qid) c.target)
      | none => grant s

/-- Q_DESTROY (R357). -/
def execQDestroy (pf : Nat) (buf : ParamBuf) (s : State) : Host.Outcome State Fault Refusal :=
  joryen 0x0203 qDestroyBody pf buf s

/-- CQ_CREATE in the order of R334. -/
def cqCreateBody : OpBody where
  lenOk := slots 9
  own c _ := ownTarget c
  run c s :=
    let p := c.params
    let t := c.target
    checked [(0, slot p 0 < 1024 && (cqidOf s t (slot p 0)).isNone), (8, slot p 1 ≤ 1), (16, slot p 2 % 4096 == 0),
        (24, 6 ≤ slot p 3 && slot p 3 ≤ 16), (32, slot p 4 % 8 == 0),
        (40, match slotOpt p 5 with | some x => x < 2 ^ 20 | none => true), (48, slot p 6 < msixSize t),
        (56, 1 ≤ slot p 7 && slot p 7 ≤ 65535), (64, slot p 8 ≤ 1023)] s fun _ =>
      if !mayTake s t 2 1 then .finish (refuse stNoResource) s
      else
        match pickFree s 32768 fun i => (tget s.wq.cqs i).isSome with
        | (none, s) => .finish (refuse stNoResource) s
        | (some c, s) =>
          let q : Cq := { fid := t, loc := slot p 0, kind := slot p 1, base := slot p 2, log2 := slot p 3, shadow := slot p 4,
                          pasid := slotOpt p 5, vector := slot p 6, modCount := slot p 7, modTime := slot p 8 }
          grant (kick { s with wq := { s.wq with cqs := tset s.wq.cqs c q } } t) [BitVec.ofNat 32 c]

/-- CQ_CREATE (R334). -/
def execCqCreate (pf : Nat) (buf : ParamBuf) (s : State) : Host.Outcome State Fault Refusal :=
  joryen 0x0204 cqCreateBody pf buf s

/-- The CQ that slot 0 names. -/
def namedCq (c : Ctx) (s : State) : Option Nat := cqidOf s c.target (slot c.params 0)

/-- CQ_MODERATE: local CQ, MOD_COUNT, MOD_TIME. -/
def cqModerateBody : OpBody where
  lenOk := slots 3
  objs c s := (namedCq c s).isSome
  own c _ := ownTarget c
  run c s :=
    let n := slot c.params 1
    let t := slot c.params 2
    checked [(8, 1 ≤ n && n ≤ 65535), (16, t ≤ 1023)] s fun _ =>
      match namedCq c s with
      | some i => grant (modCq s i fun q => { q with modCount := n, modTime := t })
      | none => grant s

/-- CQ_MODERATE (R334). -/
def execCqModerate (pf : Nat) (buf : ParamBuf) (s : State) : Host.Outcome State Fault Refusal :=
  joryen 0x0205 cqModerateBody pf buf s

/-- CQ_DESTROY: local CQ; a WAIT_CQ on it completes (R231). -/
def cqDestroyBody : OpBody where
  lenOk := slots 1
  objs c s := (namedCq c s).isSome
  own c _ := ownTarget c
  run c s := match namedCq c s with
    | none => grant s
    | some i =>
      if s.wq.queues.any fun p => p.2.cq == i || p.2.tsq == some i then .finish (badParam 0) s
      else grant (kick { s with wq := { s.wq with cqs := terase s.wq.cqs i } } c.target)

/-- CQ_DESTROY (R357). -/
def execCqDestroy (pf : Nat) (buf : ParamBuf) (s : State) : Host.Outcome State Fault Refusal :=
  joryen 0x0206 cqDestroyBody pf buf s

end Sys2Proof.Machine
end

