-- ==== Sys2Proof/Machine/HostLink.lean ====
section
/-! DEFINITION. The host link (R268 to R298, R515): training and power of the links, Bus Master Enable and D3hot, the
resets of the host, VFs that cease to exist, tags and their quarantine, HOST_LOST. -/

namespace Sys2Proof.Machine

/-! ## What a host reset takes from a function (R282) -/

/-- A frame already in the device forgets the host entry it would complete (R282, R294). -/
def forgetFrame (qids : List Nat) (f : TxFrame) : TxFrame :=
  let gone := fun (x : Option (Nat × Nat)) => match x with | some (q, _) => qids.contains q | none => false
  if gone f.host || gone f.wr then { f with host := none, wr := none, ts := none } else f

/-- The frames of reset queues are sent and report to no one. -/
def forgetFrames (s : State) (qids : List Nat) : State :=
  let g := forgetFrame qids
  let s := { s with pkt := { s.pkt with ports := tmap s.pkt.ports fun _ p => { p with
    queues := tmap p.queues fun _ l => l.map g
    waiting := p.waiting.map g
    inTx := p.inTx.map g
    rest := p.rest.map g } } }
  { s with cph := { s.cph with frames := s.cph.frames.map fun f => { f with tx := f.tx.map g } } }

/-- The queues and CQs of a function are gone: preloaded frames go with them, no completion is written (R288, R355). -/
def dropFnQueues (s : State) (fid : Nat) : State :=
  let qs := s.wq.queues.filter fun p => p.2.fid == fid
  let s := qs.foldl (fun s p => dropPreloads s p.1 p.2) s
  let s := forgetFrames s (qs.map Prod.fst)
  { s with
    wq := { s.wq with
      queues := s.wq.queues.filter fun p => p.2.fid != fid
      cqs := s.wq.cqs.filter fun p => p.2.fid != fid }
    cph := { s.cph with jobs := s.cph.jobs.filter fun p => p.2.fid != fid } }

/-- Connections FREE with FORCE, windows revoked (R282, R283). -/
def dropFnWove (s : State) (fid : Nat) : State :=
  let s := (s.wove.conns.filter fun p => p.2.fid == fid).foldl (fun s p => freeConn s p.1) s
  (s.wove.windows.filter fun p => p.2.fid == fid).foldl (fun s p => revoke s (p.1 * 1024 + p.2.gen)) s

/-- The record of a function after a host reset: sticky error fields, quotas, assignments and dirty logging stay, tags of
open reads are quarantined, everything else is as at reset. -/
def resetRec (f : Fn) : Fn :=
  { aer := f.aer, aerMask := f.aerMask, aerSev := f.aerSev, quota := f.quota, trigSlots := f.trigSlots, cphPages := f.cphPages,
    banks := f.banks, dirty := f.dirty, quar := f.quar ++ f.tags.map Prod.fst, nextTag := f.nextTag, flr := f.flr }

/-- A host reset acts on one function (R282). -/
def resetFn (s : State) (fid : Nat) : State :=
  let s := modFn s fid fun f => { f with bme := false }
  let s := dropFnQueues (dropFnWove s fid) fid
  let s := { s with host := { s.host with dtu := s.host.dtu.filter fun e => e.fid != fid } }
  let s := if fid < 8 then killChannel s fid else s
  let s := if fid = 0 then
      let s := dropKey s 4
      { s with boot := { s.boot with session := false } }
    else s
  revokesDone (modFn s fid resetRec)

/-- Everything a VF held is destroyed or released (R515): its SAs, index resources, and quotas. -/
def stripVf (s : State) (v : Nat) : State :=
  let s := (s.cph.sas.filter fun p => p.2.valid && p.2.fid == v).foldl (fun s p => clearSa s p.1) s
  let s := { s with cph := { s.cph with pageCnt := terase s.cph.pageCnt v } }
  let s := [8, 9, 10].foldl (fun s code => (indexList (fnOf s v) code).foldl (fun s _ => releaseRes s v code) s) s
  modFn s v fun f => { aer := f.aer, aerMask := f.aerMask, aerSev := f.aerSev, quar := f.quar, nextTag := f.nextTag }

/-- VFs cease to exist. -/
def removeVfs (s : State) (vfs : List Nat) : State := vfs.foldl (fun s v => stripVf (resetFn s v) v) s

/-- The VFs of a PF that exist. -/
def liveVfs (s : State) (pf : Nat) : List Nat := (vfsOf s pf).filter (fnPresent s)

/-- Set VF Enable and NumVFs of a PF: VFs no longer covered cease to exist (R515). -/
def setVfs (s : State) (pf : Nat) (en : Bool) (n : Nat) : State :=
  let t := modFn s pf fun f => { f with vfEnable := en, numVfs := n }
  removeVfs t ((liveVfs s pf).filter fun v => !fnPresent t v)

/-- A host reset acts on a PF with its VFs. -/
def resetPf (s : State) (pf : Nat) : State := resetFn (setVfs s pf false 0) pf

/-- The PFs of a link (R269). -/
def linkPfs (s : State) (k : Nat) : List Nat := (List.range 8).filter fun p => linkOf s p == k

/-- A hot reset, PERST_N or HOST_LOST acts on every function of a link; an FLR in progress gives way (R284). -/
def resetLink (s : State) (k : Nat) : State :=
  (linkPfs s k).foldl (fun s p => modFn (resetPf s p) p fun f => { f with flr := false }) s

/-- The links of the device. -/
def linkOk (s : State) (k : Nat) : Bool := k == 0 || (k == 1 && s.host.split)

/-- VF_REMOVE (R515): NumVFs of its PF no longer covers the VF. -/
def execVfRemove (fid : Nat) (s : State) : Host.Outcome State Fault Refusal :=
  within (fid < 4096) (live s fun s =>
    if fid < 8 || !fnPresent s fid then s
    else setVfs s (pfOf s fid) (fnOf s (pfOf s fid)).vfEnable (vfIndex s fid - 1))

/-! ## Bus Master Enable and D3hot (R281, R286, R287) -/

/-- The function may master no more: its queues enter MASTER_DISABLED, and what was fetched and is not settled will
complete with ABORTED_BME. -/
def masterOff (s : State) (fid : Nat) : State :=
  let qs := (s.wq.queues.filter fun p => p.2.fid == fid && p.2.state != 6 && p.2.state != 4).map Prod.fst
  qs.foldl (fun s qid => abortEntries (modQ s qid fun q => { q with state := 3 }) qid 0x05)
    (modFn s fid fun f => { f with masterDisabled := true })

/-- The function may master again: completions due, held entries, shadows and pending messages go out. -/
def masterOn (s : State) (fid : Nat) : State :=
  let s := modFn s fid fun f => { f with masterDisabled := false }
  let s := (s.wq.queues.filter fun p => p.2.fid == fid).foldl (fun s p => flushQ s p.1) s
  let s := (s.wq.cqs.filter fun p => p.2.fid == fid).foldl (fun s p =>
    let s := p.2.held.foldl (fun s _ => cqDrainOne s p.1) s
    shadowWrite s p.1) s
  msixFlush (kick (sendPageReqs s fid) fid) fid

/-- Bus Master Enable is cleared (R286); during an FLR it has no effect beyond the FLR (R284). -/
def clearBme (s : State) (fid : Nat) : State :=
  let f := fnOf s fid
  if !f.bme then s
  else
    let t := modFn s fid fun f => { f with bme := false }
    if f.d3hot then t else masterOff t fid

/-- Bus Master Enable is set (R287). -/
def setBme (s : State) (fid : Nat) : State :=
  let f := fnOf s fid
  if f.bme then s
  else
    let t := modFn s fid fun f => { f with bme := true }
    if f.d3hot then t else masterOn t fid

/-- The function answers configuration requests: it exists, no FLR of it runs, and its link is config-ready. -/
def cfgReach (s : State) (fid : Nat) : Bool :=
  let l := linkRec s (linkOf s fid)
  fnPresent s fid && !(fnOf s fid).flr && l.ready && !l.lost && !s.host.perstLow

/-- A configuration write to a function. -/
def onCfg (s : State) (fid : Nat) (f : State → State) : State :=
  if cfgReach s fid then f s else if fnPresent s fid then emit s (.pcie "CONFIG_RRS" fid 0) else s

/-- BME_CLEAR (R286). -/
def execBmeClear (fid : Nat) (s : State) : Host.Outcome State Fault Refusal :=
  within (fid < 4096) (live s fun s => onCfg s fid fun s => clearBme s fid)

/-- BME_SET (R287). -/
def execBmeSet (fid : Nat) (s : State) : Host.Outcome State Fault Refusal :=
  within (fid < 4096) (live s fun s => onCfg s fid fun s => setBme s fid)

/-- A function enters D3hot (R281). -/
def enterD3 (s : State) (fid : Nat) : State :=
  let f := fnOf s fid
  if f.d3hot then s
  else
    let t := modFn s fid fun f => { f with d3hot := true }
    if f.bme then masterOff t fid else t

/-- A function returns to D0 with its state (R281). -/
def leaveD3 (s : State) (fid : Nat) : State :=
  let f := fnOf s fid
  if !f.d3hot then s
  else
    let t := modFn s fid fun f => { f with d3hot := false }
    if f.bme then masterOn t fid else t

/-- D3HOT_ENTRY (R281). -/
def execD3hotEntry (fid : Nat) (s : State) : Host.Outcome State Fault Refusal :=
  within (fid < 4096) (live s fun s => onCfg s fid fun s => enterD3 s fid)

/-- D0_RETURN (R281). -/
def execD0Return (fid : Nat) (s : State) : Host.Outcome State Fault Refusal :=
  within (fid < 4096) (live s fun s => onCfg s fid fun s => leaveD3 s fid)

/-! ## Function-level reset (R288, R289) -/

/-- A write of Initiate FLR: it is acknowledged, and the function is reset. -/
def startFlr (s : State) (fid : Nat) : State :=
  let s := emit s (.pcie "FLR_ACKNOWLEDGED" fid 0)
  let s := modFn s fid fun f => { f with flr := true }
  if fid < 8 then resetPf s fid else resetFn s fid

/-- FLR_INITIATE (R288); a function whose FLR runs answers with RRS (R284). -/
def execFlrInitiate (fid : Nat) (s : State) : Host.Outcome State Fault Refusal :=
  within (fid < 4096) (live s fun s => onCfg s fid fun s => startFlr s fid)

/-- FLR_COMPLETE (R288). -/
def execFlrComplete (fid : Nat) (s : State) : Host.Outcome State Fault Refusal :=
  within (fid < 4096) (live s fun s =>
    if (fnOf s fid).flr then modFn s fid fun f => { f with flr := false } else s)

/-! ## Training and power of a link (R268, R277 to R280) -/

/-- The link goes down to a PM_STATE. -/
def hostDown (s : State) (k pm : Nat) (lost : Bool) : State := modLink s k fun _ => { pm := pm, lost := lost }

/-- A link reaches data-link-up; one that was HOST_LOST returns (R295). -/
def linkUpTo (s : State) (k speed width : Nat) (flit : Bool) : State :=
  let back := (linkRec s k).lost
  let s := modLink s k fun _ => { pm := 0, width := width, active := width, flit := flit, up := true, speed := speed }
  if back then hwSet s (Reg.HIF_EVENT k) 1 7 4 else s

/-- Widths a link may train at (R268, R269). -/
def widthOk (s : State) (w : Nat) : Bool := [1, 2, 4, 8].contains w || (w == 16 && !s.host.split)

/-- HOST_LINK_UP (R268): FLIT mode is used at 64 GT/s and above. -/
def execHostLinkUp (k speed width : Nat) (flit : Bool) (s : State) : Host.Outcome State Fault Refusal :=
  within (k < 2) (live s fun s =>
    if !linkOk s k || s.host.perstLow || (linkRec s k).up || 7 ≤ speed || !widthOk s width then s
    else linkUpTo s k speed width (flit || 5 ≤ speed))

/-- HOST_RETURN (R295): the rate and width are not told, and are free values. -/
def execHostReturn (k : Nat) (s : State) : Host.Outcome State Fault Refusal :=
  within (k < 2) (live s fun s =>
    if !linkOk s k || s.host.perstLow || !(linkRec s k).lost then s
    else
      let (v, s) := free s
      let speed := v.toNat % 7
      linkUpTo s k speed (2 ^ (v.toNat / 8 % (if s.host.split then 4 else 5))) (5 ≤ speed || v.toNat / 64 % 2 == 1))

/-- LTR in µs, 0 for no requirement (R277). -/
def ltrOf (s : State) (k : Nat) : Nat :=
  if s.grade.cur = .standby then 0
  else if s.wq.queues.any fun p => linkOf s p.2.fid == k && p.2.state != 0 then 50 else 1000

/-- The grade and state of a link let it save power (R279). -/
def linkRests (s : State) (k : Nat) : Bool :=
  linkOk s k && (linkRec s k).up && (linkRec s k).pm ≤ 1 && s.grade.cur != .deterministic

/-- Function 0 of a link (R269, R270). -/
def fnZero (k : Nat) : Nat := if k = 0 then 0 else 4

/-- ASPM_L1_REQUEST (R277): the link has carried no TLP for `idle` µs, and L1_IDLE is over. L1 where the host has enabled
it, or the deepest substate the host has enabled; the LTR reported permits L1.2, whose exit takes at most 44 µs. In
STANDBY L1.2 is asked for whenever the host has enabled it (R279). -/
def execAspmL1Request (k idle : Nat) (s : State) : Host.Outcome State Fault Refusal :=
  within (k < 2) (live s fun s =>
    let a := (fnOf s (fnZero k)).aspm
    if !linkRests s k ||
        !((a.l1 && fld s (Reg.HIF_LINK_PM k) 17 8 ≤ idle) || (s.grade.cur == .standby && a.l12)) then s
    else
      let s := emit s (.pcie "LTR" (fnZero k) (ltrOf s k))
      modLink s k fun l => { l with pm := if a.l12 then 4 else if a.l11 then 3 else 2 })

/-- The next narrower width (R278), not below L0P_MIN. -/
def narrower (s : State) (k : Nat) : Option Nat :=
  let w := (linkRec s k).active
  let least := 2 * 2 ^ fld s (Reg.HIF_LINK_PM k) 2 1
  if w / 2 < least || w < 4 then none else some (w / 2)

/-- L0P_NARROW (R278). -/
def execL0pNarrow (k : Nat) (s : State) : Host.Outcome State Fault Refusal :=
  within (k < 2) (live s fun s =>
    if !linkRests s k || !flag s (Reg.HIF_LINK_PM k) 0 || !(linkRec s k).flit then s
    else match narrower s k with
      | some w => modLink s k fun l => { l with pm := 1, active := w }
      | none => s)

/-- L0 at full width. -/
def wakeLink (s : State) (k : Nat) : State :=
  let l := linkRec s k
  if l.up && 1 ≤ l.pm && l.pm ≤ 4 then modLink s k fun l => { l with pm := 0, active := l.width } else s

/-- L0P_WIDEN (R278). -/
def execL0pWiden (k : Nat) (s : State) : Host.Outcome State Fault Refusal :=
  within (k < 2) (live s fun s => if (linkRec s k).pm = 1 then wakeLink s k else s)

/-- The queue waits on an armed trigger slot, and an entry behind the wait is not preloaded (R164, R280). -/
def waitsUnloaded (s : State) (q : Queue) : Bool :=
  let behind := blockedIdx q.entries
  q.state == 2 &&
  (q.entries.any fun e => e.state == .held && e.op == 0x33 &&
    (match trigOf s q.fid (leAt e.raw 4 2 % 4096) with
     | some t => (tgetD s.time.trigs t {}).armed
     | none => false)) &&
  q.entries.any fun e => behind.contains e.idx &&
    (match e.state with | .queued => false | .admitted => false | .done .. => false | _ => true)

/-- A host transmit, wove or transform queue of the link has work that a firing releases and that is not preloaded. -/
def wakeWanted (s : State) (k : Nat) : Bool :=
  s.wq.queues.any fun p => linkOf s p.2.fid == k && (p.2.type == 0 || p.2.type == 2 || p.2.type == 4) && waitsUnloaded s p.2

/-- LINK_WAKE_LEAD (R280): WAKE_LEAD ahead of a firing that such a queue waits for. -/
def execLinkWakeLead (k : Nat) (s : State) : Host.Outcome State Fault Refusal :=
  within (k < 2) (live s fun s => if wakeWanted s k then wakeLink s k else s)

/-- CONFIG_READY (R295, R272): a Device Readiness Status message, and configuration requests are answered. -/
def execConfigReady (k : Nat) (s : State) : Host.Outcome State Fault Refusal :=
  within (k < 2) (live s fun s =>
    let l := linkRec s k
    if linkOk s k && l.up && !l.ready then
      emit (modLink s k fun l => { l with ready := true }) (.pcie "DEVICE_READINESS_STATUS" (fnZero k) 0)
    else s)

/-! ## Resets of a link (R282, R284, R285, R293) -/

/-- The level of PERST_N. -/
def setPerst (s : State) (low : Bool) : State :=
  setFlag { s with host := { s.host with perstLow := low } } (Reg.GLB_PIN_LEVEL) 5 (!low)

/-- PERST_N goes low (R282). -/
def perstReset (s : State) : State :=
  let s := resetLink (resetLink s 0) 1
  hostDown (hostDown (setPerst s true) 0 6 false) 1 6 false

/-- PERST_ASSERT (R282, R285); without clocks only the pin moves (R37). -/
def execPerstAssert (s : State) : Host.Outcome State Fault Refusal :=
  if clocked s then live s fun s => if s.host.perstLow then s else perstReset s
  else always s fun s => setPerst s true

/-- PERST_DEASSERT (R282): training starts. -/
def execPerstDeassert (s : State) : Host.Outcome State Fault Refusal :=
  if clocked s then live s fun s =>
    if s.host.perstLow then hostDown (hostDown (setPerst s false) 0 5 false) 1 5 false else s
  else always s fun s => setPerst s false

/-- HOT_RESET (R282): received from the downstream port of a link that is up; the link retrains. -/
def execHotReset (k : Nat) (s : State) : Host.Outcome State Fault Refusal :=
  within (k < 2) (live s fun s =>
    if linkOk s k && (linkRec s k).up then
      hwSet (hostDown (resetLink s k) k 5 false) (Reg.HIF_EVENT k) 2 15 8
    else s)

/-- HOST_LOST (R293): data-link-down while PERST_N is high, with no hot reset. -/
def execHostLost (k : Nat) (s : State) : Host.Outcome State Fault Refusal :=
  within (k < 2) (live s fun s =>
    if linkOk s k && (linkRec s k).up && !s.host.perstLow then
      hwSet (hostDown (resetLink s k) k 5 true) (Reg.HIF_EVENT k) 0 3 0
    else s)

/-! ## Completions of host reads (R290 to R292) -/

/-- The payload of a frame's entry has arrived. -/
def payloadIn (s : State) (qid idx : Nat) (b : List Byte) : State :=
  match tget s.wq.queues qid with
  | none => s
  | some q =>
    kick (modQ s qid fun q => { q with entries := q.entries.map fun e =>
      if e.idx = idx ∧ e.state = .started then { e with data := some (b.take e.len) } else e }) q.fid

/-- A completion for an outstanding tag: its data is handed on, or discarded for a read abandoned under R286. -/
def readDone (s : State) (fid : Nat) (t : HostTag) (c : HostRead) : State :=
  match t.qid, t.discard, c with
  | some qid, false, .ok b => payloadIn s qid t.entry b
  | some qid, false, .fail r => kick (failRead s qid t.entry r) fid
  | _, _, .ok _ => s
  | _, _, .fail r => reportRead s fid r

/-- HOST_COMPLETION_RECEIVE (R291). -/
def execHostCompletionReceive (k fid tag : Nat) (c : HostRead) (s : State) : Host.Outcome State Fault Refusal :=
  within (k < 2 && fid < 4096) (live s fun s =>
    let f := fnOf s fid
    if (linkRec s k).lost || s.host.perstLow then s
    else if f.quar.contains tag then
      count (modFn s fid fun f => { f with quar := f.quar.filter (· != tag) }) (Reg.HIF_CPL_LATE)
    else match tget f.tags tag with
      | some t =>
        if t.link = k then readDone (modFn s fid fun f => { f with tags := terase f.tags tag }) fid t c
        else aer s fid aerUnexpected
      | none => aer s fid aerUnexpected)

/-- QUARANTINE_EXPIRY (R291). -/
def execQuarantineExpiry (fid tag : Nat) (s : State) : Host.Outcome State Fault Refusal :=
  within (fid < 4096) (live s fun s =>
    if (fnOf s fid).quar.contains tag then
      count (modFn s fid fun f => { f with quar := f.quar.filter (· != tag) }) (Reg.HIF_QUAR_EXPIRED)
    else s)

/-- COMPLETION_TIMEOUT (R292): reported also for a read abandoned under R286. -/
def execCompletionTimeout (fid tag : Nat) (s : State) : Host.Outcome State Fault Refusal :=
  within (fid < 4096) (live s fun s =>
    match tget (fnOf s fid).tags tag with
    | some t => readDone (modFn s fid fun f => { f with tags := terase f.tags tag }) fid t (.fail .timeout)
    | none => s)

end Sys2Proof.Machine
end

