-- ==== Sys2Proof/Machine/Messages.lean ====
section
/-! DEFINITION. Messages: Joryen commands that come without a channel, on the FW_CTRL ring (R353, R354) or from the boot
configuration (R467). -/

namespace Sys2Proof.Machine

/-- The bodies of ring-capable opcodes (R373), groups 0x00 to 0x02. -/
def ringBodiesA : Tab OpBody := [
  (0x0000, nopBody), (0x0001, devInfoBody), (0x0004, smbEnableBody),
  (0x0100, quotaSetBody), (0x0101, quotaQueryBody), (0x0102, resAssignBody), (0x0103, resReleaseBody),
  (0x0104, dirtyStartBody), (0x0105, dirtySwapBody), (0x0106, dirtyStopBody),
  (0x0200, qCreateBody), (0x0201, qStopBody), (0x0202, qResumeBody), (0x0203, qDestroyBody),
  (0x0204, cqCreateBody), (0x0205, cqModerateBody), (0x0206, cqDestroyBody)]

/-- Group 0x03. -/
def ringBodiesB : Tab OpBody := [
  (0x0300, graphWriteBody), (0x0301, graphStageBody), (0x0303, progWriteBody), (0x0304, templateBody),
  (0x0305, emInsertBody), (0x0306, emDeleteBody), (0x0307, tcamWriteBody), (0x0308, tcamClearBody),
  (0x0309, lpmAddBody), (0x030A, lpmDeleteBody), (0x030B, meterBody), (0x030C, mirrorBody),
  (0x030D, rssKeyBody), (0x030E, rssIndirBody), (0x030F, counterReadBody)]

/-- Groups 0x04 to 0x06. -/
def ringBodiesC : Tab OpBody := [
  (0x0400, listWriteBody), (0x0401, listCommitBody), (0x0402, listReadBody),
  (0x0408, streamSetBody), (0x0409, streamClearBody), (0x040A, frerStatsBody),
  (0x0410, trigSetBody), (0x0411, trigClearBody),
  (0x0418, phcStepBody), (0x0419, phcRateBody), (0x041A, phcLockBody), (0x041B, phcReadBody), (0x0420, crgMsgBody),
  (0x0500, connCreateBody), (0x0501, connCloseBody), (0x0502, connRekeyBody), (0x0503, connQueryBody),
  (0x0508, winOpenBody), (0x0509, winRevokeBody),
  (0x0600, saWriteBody), (0x0601, saClearBody), (0x0602, saQueryBody)]

/-- Groups 0x07 to 0x0B. -/
def ringBodiesD : Tab OpBody := [
  (0x0700, imageLoadBody), (0x0703, quireQueryBody), (0x0801, marchStatusBody), (0x080A, hbmQueryBody),
  (0x0902, dryQueryBody), (0x0A00, pmuCfgBody), (0x0A02, errlogReadBody), (0x0B04, fwQueryBody)]

/-- The body of a ring-capable opcode. -/
def ringBody (code : Nat) : Option OpBody := tget (ringBodiesA ++ ringBodiesB ++ ringBodiesC ++ ringBodiesD) code

/-- Carry out a message: a 64-byte header and its parameters (R353). An opcode that is unknown or not ring-capable draws
BAD_OPCODE (R354). CORE_IMAGE_LOAD alone writes the HBM. -/
def runMessage (msg : List Byte) (s : State) : Option Reply × State :=
  let h := msg.take 64
  match ringBody (hdrOpcode h) with
  | none => (some (refuse stBadOpcode), s)
  | some b =>
    let (r, t) := ringRun (hdrOpcode h) b h (msg.drop 64) s
    (r, if hdrOpcode h = 0x0700 then t else { t with mem := s.mem })

/-- The oldest FW_MSG of a queue that has not been carried out. -/
def nextMessage (q : Queue) : Option QEntry := q.entries.find? fun e => e.op == 0x40 && e.state == .held

/-- A message of the ring was carried out: its output goes to PF 0 (R364), its reply over the first 32 bytes of the
buffer, and the entry completes with the Joryen status in DETAIL and a reply length of 32 (R354). -/
def answerMessage (s : State) (qid : Nat) (q : Queue) (e : QEntry) (h : List Byte) (r : Reply) : State :=
  let n := min r.out.length (hdrOutLen h)
  let s := if n = 0 then s else hostWrite s 0 none (leAt h 24 8) (r.out.take n)
  let r' := partialReply h r
  let reply := (replyWords h r' n).flatMap fun w => toLe 4 w.toNat
  let s := hostWrite s q.fid q.pasid e.addr reply
  kick (settleEntry s qid e.idx 0 (r'.status % 256) (toLe 4 32)) q.fid

/-- FW_MSG_EXECUTE (R353, R354): management firmware carries out the next message of the FW_CTRL ring, whose bytes are
`buf`. A WOV_WIN_REVOKE that waits for packets checked before (R210) is answered once they are gone. -/
def execFwMsgExecute (buf : List Byte) (s : State) : Host.Outcome State Fault Refusal :=
  liveMem s fun s =>
    match s.wq.queues.find? fun p => p.2.type == 5 && (p.2.state == 1 || p.2.state == 2) with
    | none => s
    | some (qid, q) =>
      match nextMessage q with
      | none => s
      | some e =>
        if !s.cores.fwReady || !canRequest s q.fid || fnHalted s q.fid || buf.length ≠ e.len then s
        else
          match (if hdrOpcode buf = 0x0509 then tget s.wove.revoking 8 else none) with
          | some key =>
            if heldFor s key then s
            else answerMessage { s with wove := { s.wove with revoking := terase s.wove.revoking 8 } } qid q e (buf.take 64) ok
          | none =>
            match runMessage buf s with
            | (some r, t) => { answerMessage t qid q e (buf.take 64) r with mem := t.mem }
            | (none, t) => t

/-- Carry out the messages of a boot configuration from an offset of its payload on, each 64-byte aligned, until one
draws a reply other than OK: that one's index and status. `fuel` bounds how many there are. -/
def runMessages : Nat → List Byte → Nat → State → Option (Nat × Nat) × State
  | 0, _, _, s => (none, s)
  | fuel + 1, msgs, i, s =>
    if msgs.length < 64 then (none, s)
    else
      let n := 64 + hdrParamLen msgs
      let (r, s) := runMessage (msgs.take n) s
      if (r.getD ok).status = stOk then runMessages fuel (msgs.drop (64 * ceilDiv n 64)) (i + 1) s
      else (some (i, (r.getD ok).status), s)

/-- The boot configuration is carried out (R467): the grade it asks for follows, or the device stays in PROVISION with an
error record. -/
def applyBootConfig (img : List Byte) (s : State) : State :=
  let payload := img.drop 8192
  let s := { s with boot := { s.boot with configured := true } }
  match runMessages (payload.length / 64 + 1) (payload.drop 64) 0 s with
  | (some (i, st), t) => { logErr t 0x0B03 2 0xB00 [i, st] with mem := t.mem }
  | (none, t) =>
    let s := { t with grade := { t.grade with cfgCommitted := true } }
    let g := leAt payload 0 1
    if g < 8 then { (requestGrade s (gradeOf g) none).2.2 with mem := t.mem } else s

/-- BOOT_CONFIG_APPLY (R467): once, when management firmware serves; without an image the device awaits the manager. -/
def execBootConfigApply (present : Bool) (s : State) : Host.Outcome State Fault Refusal :=
  liveMem s fun s =>
    match tget s.boot.images 3 with
    | some img => if present && s.cores.fwReady && !s.boot.configured then applyBootConfig img s else s
    | none => s

end Sys2Proof.Machine
end

