-- ==== Sys2Proof/Machine/PciConfig.lean ====
section
/-! DEFINITION. What a function presents in its configuration space (R7, R269 to R274): its IDs, its place on the link, the
values of its capabilities, its base address registers, and the fields software writes. Fields go by the model's own
numbers (assumption 12, DESIGN CHOICE). -/

namespace Sys2Proof.Machine

/-! ## Identity (R7, R270, R271) -/

/-- The vendor ID, and the device IDs of PF 0, of the network PFs and of every VF. -/
def vendorId : Nat := 0x1F3D
def deviceId (fid : Nat) : Nat := if fid = 0 then 0x3200 else if fid < 8 then 0x3201 else 0x3202

/-- The offset of a function's routing ID from function 0 of its link: for a PF its ARI function number. -/
def routingOffset (s : State) (fid : Nat) : Nat := fid - fnZero (linkOf s fid)

/-- First VF Offset and VF Stride of a PF. -/
def firstVfOffset (s : State) (pf : Nat) : Nat := vfBase s pf - pf
def vfStride : Nat := 1

/-- The function is function 0 of its link. -/
def isFnZero (s : State) (fid : Nat) : Bool := fid == 0 || (fid == 4 && s.host.split)

/-! ## Capabilities (R272) -/

/-- The capabilities present, one bit per row of the table of R272 in its order: five in every function, SR-IOV in the PFs,
ATS, PRI and PASID in every function, DOE and the serial number in PF 0, the last five in function 0 of a link. -/
def capBits (s : State) (fid : Nat) : Nat :=
  0x1F + (if fid < 8 then 0x20 else 0) + 0x1C0 + (if fid = 0 then 0x600 else 0) + (if isFnZero s fid then 0xF800 else 0)

/-- A value of a capability by number: 23 Max_Payload_Size Supported in bytes; 24 tag widths (bit 0 Extended, 1 10-bit, 2 14-bit);
25 Function-Level Reset; 26 Max Link Width [15:8] and Max Link Speed [7:0] in the code of HIF_LINK_STATUS.SPEED; 27 ASPM
Support (bit 1 L1 alone) and L1 Exit Latency from [15:8] to [23:16] µs; 28 Completion Timeout Ranges and Disable; 29 LTR
(bit 0) and RRS (bit 1); 30 D0 (bit 0), D3hot (bit 3), No_Soft_Reset (bit 4), PME (bits 9 to 5); 31 MSI-X Table Size; 32 and 33
the offsets of table and PBA in BAR 4; 34 ATS: Invalidate Queue Depth [7:0], Page Aligned Request (bit 8), Global Invalidate
(bit 9); 35 Outstanding Page Request Capacity; 36 Max PASID Width; 37 TotalVFs; 38 VF Stride [31:16] and First VF Offset; 39 VF
Device ID; 40 System Page Size (bit 0: 4 KiB); 41 DOE protocols: discovery, CMA/SPDM, secured CMA/SPDM; 42 and 43 the Device
Serial Number; 44 T_POWER_ON in µs [15:8] and L1.1, L1.2 of ASPM and PCI-PM [3:0]; 45 Scaled Flow Control; 46 timing and voltage
margining. A capability a function has not reads 0. -/
def capValue (s : State) (fid n : Nat) : Nat :=
  let zero := isFnZero s fid
  match n with
  | 23 => 512
  | 24 => 7
  | 25 => 1
  | 26 => (if s.host.split then 8 else 16) * 256 + 6
  | 27 => 4 * 2 ^ 16 + 2 * 2 ^ 8 + 2
  | 28 => 0
  | 29 => (if zero then 1 else 0) + 2
  | 30 => 0x19
  | 31 => msixSize fid
  | 32 => 0
  | 33 => if fid < 8 then 0x8000 else 0x1000
  | 34 => 0x320
  | 35 => 512
  | 36 => 20
  | 37 => if fid < 8 then quotaOf s fid 0 else 0
  | 38 => if fid < 8 then vfStride * 2 ^ 16 + firstVfOffset s fid else 0
  | 39 => if fid < 8 then deviceId 8 else 0
  | 40 => if fid < 8 then 1 else 0
  | 41 => if fid = 0 then 7 else 0
  | 42 => if fid = 0 then s.boot.fuses.serial else 0
  | 43 => if fid = 0 then s.boot.fuses.serial / 2 ^ 32 else 0
  | 44 => if zero then 40 * 256 + 15 else 0
  | 45 => if zero then 1 else 0
  | 46 => if zero then 3 else 0
  | _ => 0

/-! ## Base address registers (R274) -/

/-- The size of a BAR of a function, 0 where it has none: BAR 0, 2 and 4, and VF BAR 2 and 4 of a PF as 10 and 12. -/
def barSize (fid n : Nat) : Nat :=
  match n with
  | 0 => if fid = 0 then 2 ^ 28 else 0
  | 2 => if fid < 8 then 2 ^ 21 else 0
  | 4 => if fid < 8 then 2 ^ 16 else 0
  | 10 => if fid < 8 then 2 ^ 21 else 0
  | 12 => if fid < 8 then 2 ^ 13 else 0
  | _ => 0

/-- The attributes of a BAR in its low bits, as PCI codes them (assumption 86, PRESUMED): 64-bit memory, BAR 2 and VF BAR 2
prefetchable. -/
def barKind (n : Nat) : Nat := if n % 8 = 2 then 0xC else 4

/-- What a BAR reads: the address software wrote, the bits below its size 0, with its attributes; 0 where it is absent. -/
def barValue (s : State) (fid n : Nat) : Nat :=
  let size := barSize fid n
  if size = 0 then 0 else tgetD (fnOf s fid).bars n 0 / size * size + barKind n

/-- A write of the low or the high word of a BAR. -/
def writeBar (s : State) (fid n : Nat) (high : Bool) (v : Word) : State :=
  if barSize fid n = 0 then s
  else modFn s fid fun f =>
    let old := tgetD f.bars n 0
    let new := if high then v.toNat * 2 ^ 32 + old % 2 ^ 32 else old / 2 ^ 32 * 2 ^ 32 + v.toNat
    { f with bars := tset f.bars n new }

/-! ## Reading a field -/

/-- The fields software writes, as they read. -/
def ctlValue (s : State) (fid n : Nat) : Nat :=
  let f := fnOf s fid
  match n with
  | 0 => f.bme.toNat * 4 + f.memEn.toNat * 2
  | 1 => f.d3hot.toNat * 3
  | 3 => f.msixEn.toNat * 2 ^ 15 + f.msixMask.toNat * 2 ^ 14
  | 4 => f.vfEnable.toNat
  | 5 => f.numVfs
  | 6 => f.ats.toNat
  | 7 => f.pri.toNat
  | 8 => f.priAlloc
  | 9 => f.aer.toNat
  | 10 => f.aerMask.toNat
  | 11 => f.tagMode
  | 12 => f.aspm.l12.toNat * 4 + f.aspm.l11.toNat * 2 + f.aspm.l1.toNat
  | 13 => f.aerSev.toNat
  | _ => 0

/-- What a configuration field reads: 0 to 13 the fields software writes; 14 the Completion Timeout Value, which is read-only 0
(R273); 16 device and vendor ID (R7); 17 the routing ID's offset from function 0; 22 the capabilities present; 23 to 46 their
values; 48 + 2b and 49 + 2b the low and the high word of BAR b. -/
def cfgView (s : State) (fid n : Nat) : Word :=
  BitVec.ofNat 32 (
    if n ≤ 15 then ctlValue s fid n
    else if n = 16 then deviceId fid * 2 ^ 16 + vendorId
    else if n = 17 then routingOffset s fid
    else if n = 22 then capBits s fid
    else if n < 48 then capValue s fid n
    else barValue s fid ((n - 48) / 2) / (if n % 2 = 1 then 2 ^ 32 else 1))

end Sys2Proof.Machine
end

