-- ==== Sys2Proof/Machine/Regs.lean ====
section
/-! DEFINITION. Register access (R5 to R8, R11 to R14, R20 to R26, R274 to R276, R513): what each register of BAR 0 and of a
function page reads, what a write of one does, the latches of wide registers, accesses of bad size, MSI-X tables,
configuration space, and DBG_ACCESS. -/

namespace Sys2Proof.Machine

/-! ## What registers read -/

/-- A number as a register word. -/
def word (n : Nat) : Word := BitVec.ofNat 32 n

/-- GLB_GRADE_CURRENT (R34). -/
def viewGrade (s : State) : Word :=
  let g := s.grade
  word (g.target.isSome.toNat * 256 + gradeCode (g.target.getD g.cur) * 16 + gradeCode g.cur)

/-- GLB_CLK_STATUS: ROOT_FALLBACK as stored, the rest as the clocks stand. -/
def viewClk (s : State) : Word :=
  let g := powerGrade s
  rd s Reg.GLB_CLK_STATUS ||| word (s.grade.rootSyncE.toNat * 128 + (decide (g = .deterministic)).toNat * 64 +
    (flag s Reg.DRY_STATUS 7).toNat * 16 + divMin g * 4)

/-- HIF_LINK_STATUS of link `k`: link 1 reads 0 unless the device is split. -/
def viewLink (s : State) (k : Nat) : Word :=
  let l := linkRec s k
  if k = 1 ∧ !s.host.split then 0
  else word (l.lost.toNat * 2 ^ 31 + l.pm * 2 ^ 24 + l.width * 2 ^ 16 + l.active * 2 ^ 8 + l.flit.toNat * 16 + l.up.toNat * 8 +
    l.speed)

/-- HIF_TAG_STATUS of link `k`. -/
def viewTags (s : State) (k : Nat) : Word :=
  word (((s.host.fns.filter fun p => linkOf s p.1 == k).map fun p => p.2.quar.length).sum % 2 ^ 14 * 2 ^ 16 + outstanding s k)

/-- HIF_FN_STATE of a function. -/
def viewFn (s : State) (fid : Nat) : Word :=
  let f := fnOf s fid
  word (min f.quar.length 4095 * 2 ^ 16 + (fnHalted s fid).toNat * 128 + (fnPresent s fid).toNat * 64 +
    f.d3hot.toNat * 48 + f.flr.toNat * 8 + f.masterDisabled.toNat * 4 + f.bme.toNat * 2 + f.memEn.toNat)

/-- Q_STATE of a QID, and CQ_STATE of a CQID (R358). -/
def viewQ (s : State) (qid : Nat) : Word :=
  match tget s.wq.queues qid with
  | some q => word (q.fid * 2 ^ 20 + q.type * 2 ^ 16 + q.state * 2 ^ 13 + q.loc)
  | none => 0
def viewCq (s : State) (c : Nat) : Word :=
  match tget s.wq.cqs c with
  | some q => word (q.fid * 2 ^ 20 + q.kind * 2 ^ 19 + q.armed.toNat * 2 ^ 18 + (!q.held.isEmpty).toNat * 2 ^ 17 + 2 ^ 16 + q.loc)
  | none => 0

/-- DKL_TRIG_STATE of a slot (R161). -/
def viewTrig (s : State) (n : Nat) : Word :=
  let t := tgetD s.time.trigs n {}
  word (t.armed.toNat * 2 ^ 31 + t.mode * 2 ^ 29 + t.skip % 256 * 2 ^ 16 + t.fires % 2 ^ 16)

/-- CHN_EP_STATE of endpoint `e`: items queued, and items its core's threads hold. -/
def viewEp (s : State) (e : Nat) : Word :=
  let k := tgetD s.cores.cores (e / 64) {}
  let held := (heldItems k (e % 64)).length
  word (held % 256 * 256 + (epItems k (e % 64)).length - held)

/-- A word of GLB_ERR_REC. -/
def viewErr (s : State) (n : Nat) : Word := word (leAt (errSlot s (n / 16)) (4 * (n % 16)) 4)

/-- Ternary slots in use (R105). -/
def tcamUsed (s : State) : Nat := (s.pkt.tcam.map fun p => if p.2.wide then 2 else 1).sum

/-- Registers of the global, host and queue sections that show other state. -/
def viewA (s : State) (a : Nat) : Option Word :=
  if a = Reg.GLB_GRADE_CURRENT then some (viewGrade s)
  else if a = Reg.GLB_GRADE_STATUS then some (rd s a ||| word ((drainIdle s).toNat * 16))
  else if a = Reg.GLB_CLK_STATUS then some (viewClk s)
  else if 0x11000 ≤ a ∧ a < 0x15000 then some (viewErr s ((a - 0x11000) / 4))
  else if a = Reg.HIF_LINK_STATUS 0 then some (viewLink s 0)
  else if a = Reg.HIF_LINK_STATUS 1 then some (viewLink s 1)
  else if a = Reg.HIF_TAG_STATUS 0 then some (viewTags s 0)
  else if a = Reg.HIF_TAG_STATUS 1 then some (viewTags s 1)
  else if 0x01020000 ≤ a ∧ a < 0x01024000 then some (viewFn s ((a - 0x01020000) / 4))
  else if 0x02000000 ≤ a ∧ a < 0x02040000 then some (viewQ s ((a - 0x02000000) / 4))
  else if 0x02080000 ≤ a ∧ a < 0x020A0000 then some (viewCq s ((a - 0x02080000) / 4))
  else none

/-- Registers of the packet, deckle and time sections that show other state. -/
def viewB (s : State) (a : Nat) : Option Word :=
  let u := unitOf a
  let o := offsetOf a
  let mac := u % 16
  if 0x300 ≤ u ∧ u < 0x308 ∧ o = 0x30 then some (rd s a ||| word (pfcIgnoreEff s mac * 2 ^ 16))
  else if a = Reg.HBX_BUF_STATUS then some (word (inletFree s))
  else if a = Reg.HBX_BUF_POOL then some (word (inletPool s))
  else if a = Reg.TBL_EM_USED then some (word (emUsed s))
  else if a = Reg.TBL_TCAM_USED then some (word (tcamUsed s))
  else if a = Reg.TBL_LPM_USED then some (word (lpmUsed s))
  else if 0x400 ≤ u ∧ u < 0x408 ∧ o = 0xC then some (guardReg s mac)
  else if 0x400 ≤ u ∧ u < 0x408 ∧ 0x340 ≤ o ∧ o < 0x380 ∧ o % 8 = 4 then
    some (rd s a ||| word (tgetD (portOf s mac).egrT ((o - 0x340) / 8) 0 / 16 * 2 ^ 18))
  else if a = Reg.DKL_EGR_POOL then some (word (egressPool s))
  else if a = Reg.DKL_EGR_FREE then some (word (egressFree s))
  else if a = Reg.FRER_USED then some (word s.time.streams.length)
  else if 0x04180000 ≤ a ∧ a < 0x04184000 then some (viewTrig s ((a - 0x04180000) / 4))
  else if a = Reg.TIM_DT then some (s.deviceTime.setWidth 32)
  else if a = Reg.TIM_DT + 4 then some ((s.deviceTime >>> 32).setWidth 32)
  else none

/-- Registers of the other sections that show other state; the recovery window reads 0 while it is closed (R452). -/
def viewC (s : State) (a : Nat) : Option Word :=
  let u := unitOf a
  let o := offsetOf a
  if a = Reg.WOV_CONN_USED then some (word s.wove.conns.length)
  else if a = Reg.WOV_WIN_USED then some (word s.wove.windows.length)
  else if a = Reg.CPH_SA_USED then some (word (s.cph.sas.filter fun p => p.2.valid).length)
  else if 0x700 ≤ u ∧ u < 0x708 ∧ 0x100 ≤ o ∧ o < 0x180 ∧ o % 16 = 0 then
    some (word (threadStates s (8 * (u % 16) + (o - 0x100) / 16)))
  else if 0x07200000 ≤ a ∧ a < 0x07204000 then some (viewEp s ((a - 0x07200000) / 4))
  else if a = Reg.DRY_EFF_CAP then some (putBits (rd s a) 8 0 (effCap s))
  else if a = Reg.DBG_STATUS then some (putBits (rd s a) 0 0 s.obs.unlocked.toNat)
  else if a = Reg.FRZ_STATUS then some (word (s.obs.armed.toNat * 2 ^ 31))
  else if u = 0xB10 ∧ !recActive s then some 0
  else if 0x620 ≤ u ∧ u < 0x630 then some (managerPage s (16 * (u - 0x620) + o / 0x1000) (o % 0x1000))
  else none

/-- What a register word reads (R5): reserved offsets and absent units read 0; while PMU_SNAP.VIEW is 1 a counter reads its
snapshot copy (R494). -/
def regView (s : State) (a : Nat) : Word :=
  if (rowOf s.variant a).isNone then 0
  else if snapView s && isCounter s.variant a then tgetD s.obs.snap a 0
  else (((viewA s a).or (viewB s a)).or (viewC s a)).getD (rd s a)

/-- What a master reads: the JTAG port sees nothing of the security section (R506). -/
def masterView (s : State) (m : Master) (a : Nat) : Word :=
  if m = .jtag ∧ unitOf a / 256 = 0xB then 0 else regView s a

/-! ## Reads -/

/-- The word of a wide register an address is: 0 its _LO, 1 its _HI; none in a register of one word. -/
def wideWord (s : State) (a : Nat) : Option Nat :=
  match rowOf s.variant a with
  | some (r, w) => if r.kind = .plain then none else some w
  | none => none

/-- The read latch of a master; it holds 0 after reset (R21). -/
def readLatchOf (s : State) (m : Master) : Word := ((s.readLatch.find? fun l => l.1 == m).map Prod.snd).getD 0

/-- Fill the read latch of a master. -/
def setReadLatch (s : State) (m : Master) (v : Word) : State :=
  { s with readLatch := (m, v) :: s.readLatch.filter fun l => l.1 != m }

/-- Clear the read-to-clear bits of a register (R6). -/
def clearRc (s : State) (a : Nat) : State :=
  match rowOf s.variant a with
  | some (r, 0) => if r.rc = 0 then s else wr s a (rd s a &&& ~~~(word r.rc))
  | _ => s

/-- An aligned 32-bit read of BAR 0 by a master (R6, R21): a _LO word fills the master's latch with the high word, a _HI
word reads that latch. -/
def read32 (s : State) (m : Master) (a : Nat) : Word × State :=
  match wideWord s a with
  | some 0 => (masterView s m a, setReadLatch s m (masterView s m (a + 4)))
  | some _ => (readLatchOf s m, s)
  | none => (masterView s m a, clearRc s a)

/-- The master kind and number of R513. -/
def masterCode : Master → Nat
  | .fn fid => fid
  | .unit sec u => 2 ^ 14 + sec % 16 * 256 + u % 256
  | .jtag => 2 * 2 ^ 14
  | .core h => 3 * 2 ^ 14 + h % 512

/-- The space of R513 of an access by a master. -/
def spaceCode (m : Master) : Space → Nat
  | .bar0 => (match m with | .fn _ => 0 | _ => 5)
  | .page fid => if fid < 8 then 1 else 3
  | .msix fid => if fid < 8 then 2 else 4
  | .cfg _ => 0

/-- An access of bad size or alignment is recorded (R20, R513); a read returns 0. -/
def badAccess (s : State) (m : Master) (sp : Space) (a size : Nat) (isWrite : Bool) : State :=
  let fid := match m with | .fn f => f | _ => 0xFFFF
  let s := logErr s 0x0001 0 0x000
    [spaceCode m sp * 2 ^ 61 + a % 2 ^ 32, masterCode m, isWrite.toNat * 128 + size % 16] fid
  if isWrite then s else emit s (.busData m a (List.replicate size 0))

/-- A read of BAR 0: a data core reads only the compute section, through its window, and any other address faults in its
thread (R376). -/
def onRead (s : State) (m : Master) (a : Nat) (f : State → State) : State :=
  match m with
  | .core h =>
    if !hartRuns s h then s
    else if unitOf a / 256 = 7 then f s else trapFree s h 5
  | _ => onBar0 s m f

/-- What an aligned read leaves behind and answers: `get` reads `n` bytes at an address that is a multiple of `n`; any other
is recorded (R20). -/
def answerRead (s : State) (m : Master) (sp : Space) (a n : Nat) (get : State → Nat × State) : State :=
  if a % n ≠ 0 then badAccess s m sp a n false
  else
    let (v, s) := get s
    emit s (.busData m a (toLe n v))

/-- A 32-bit read of BAR 0, answered to the master. -/
def busRead (s : State) (m : Master) (a : Nat) : State :=
  onRead s m a fun s => answerRead s m .bar0 a 4 fun s =>
    let (v, s) := read32 s m a
    (v.toNat, s)

/-! ## Writes of BAR 0 -/

/-- DRY_CFG: HIGH_WATER below LOW_WATER is ignored. -/
def writeDryCfg (s : State) (v : Word) : State :=
  regWrite s Reg.DRY_CFG (if bits v 23 16 < bits v 31 24 then putBits v 23 16 (fld s Reg.DRY_CFG 23 16) else v)

/-- GLB_CLK_CTRL, and TIM_SYNCE_SEL: in PROVISION the choice takes effect at once, otherwise at its next entry (R16, R186). -/
def writeClkCtrl (s : State) (v : Word) : State :=
  let s := regWrite s Reg.GLB_CLK_CTRL v
  if s.grade.cur = .provision then { s with grade := { s.grade with rootSyncE := flag s Reg.GLB_CLK_CTRL 0 } } else s
def writeSynce (s : State) (v : Word) : State :=
  let s := regWrite s Reg.TIM_SYNCE_SEL v
  if s.grade.cur = .provision then { s with time := { s.time with synceLane := fld s Reg.TIM_SYNCE_SEL 3 0 } } else s

/-- DKL_PREEMPT_CFG: ignored while PORT_EN is 1. -/
def writePreempt (s : State) (mac a : Nat) (v : Word) : State :=
  if portEn s mac then s else verifyInitial (regWrite s a v) mac

/-- BOOT_DEV_RESET (R447). -/
def writeDevReset (s : State) (v : Word) : State := if bits v 7 0 = 0xD5 then startDeviceReset s else s

/-- A write in the packet section. -/
def writePacket (s : State) (u o a : Nat) (v : Word) : State :=
  let mac := u % 16
  if u < 0x308 then
    if o = 0 then writeShape s (mac / 4) v
    else if o = 0x10 then writePortEn s mac v
    else if o = 0x40 ∨ o = 0x44 then writeQi s mac a v
    else if o = 0x410 ∨ o = 0x510 then writeFfe s a v
    else regWrite s a v
  else if u = 0x308 then writeHbx s a v
  else if 0x310 ≤ u ∧ u < 0x31A then
    if o = 0 then writeGraphSel s mac v
    else if 0x200 ≤ o ∧ o < 0x220 then writeInletClass s mac ((o - 0x200) / 4) v
    else regWrite s a v
  else regWrite s a v

/-- A write in the deckle and time section. -/
def writeTime (s : State) (u o a : Nat) (v : Word) : State :=
  let n := u % 16
  if u < 0x408 then
    if o = 0 then writeDklPort s n v
    else if 0x100 ≤ o ∧ o < 0x120 then writeDklClass s n ((o - 0x100) / 4) v
    else if o = 0x200 then writePreempt s n a v
    else if isEgressCfg a then writeEgress s a v
    else regWrite s a v
  else if 0x420 ≤ u ∧ u < 0x424 then
    if o = 0 then setLocked s n (bits v 0 0 == 1)
    else if o = 0x2C then writeStepGo s n v
    else if o = 0x30 then (if bits v 0 0 = 1 then snapshot s n else s)
    else regWrite s a v
  else if a = Reg.TIM_SYNCE_SEL then writeSynce s v
  else if a = Reg.CRG_CFG then writeCrg s v
  else regWrite s a v

/-- A write of WOV_CFG: UDP_PORT is written only while EN is 0 (R205). -/
def writeWovCfg (s : State) (v : Word) : State :=
  regWrite s (Reg.WOV_CFG) (if flag s (Reg.WOV_CFG) 0 then (rd s (Reg.WOV_CFG) &&& 0xFFFF0000) ||| (v &&& 0xFFFF) else v)

/-- A write of a one-word register: those whose write does more than store, and the rest (R6, R24). -/
def writePlain (s : State) (a : Nat) (v : Word) : State :=
  let u := unitOf a
  let o := offsetOf a
  if 0xFF00 ≤ o ∧ unitHasPmu s.variant u then regWrite s a v
  else if a = Reg.GLB_GRADE_REQUEST then (requestGrade s (gradeOf (bits v 2 0)) none).2.2
  else if a = Reg.GLB_CLK_CTRL then writeClkCtrl s v
  else if u / 256 = 3 then writePacket s u o a v
  else if u / 256 = 4 then writeTime s u o a v
  else if 0x620 ≤ u ∧ u < 0x630 then managerSel s (16 * (u - 0x620) + o / 0x1000) v
  else if u = 0x618 ∧ o < 0x80 then writePortCfg s (o / 16) v
  else if u = 0x800 ∧ o < 0x2000 ∧ o % 32 = 0 then writeOwner s (o / 32) v
  else if a = Reg.WOV_CFG then writeWovCfg s v
  else if a = Reg.DRY_CFG then writeDryCfg s v
  else if a = Reg.PMU_SNAP then writeSnap s v
  else if u = 0xA10 ∧ o < 74 * 32 ∧ o % 32 = 0 then writeTrcCtl s (o / 32) v
  else if a = Reg.DBG_RELOCK then writeRelock s v
  else if a = Reg.BOOT_DEV_RESET then writeDevReset s v
  else if a = Reg.BOOT_REC_GO then recGo s v
  else if u = 0xB10 ∧ !recActive s then s
  else regWrite s a v

/-- Commit a wide register as a whole (R22): a rate takes effect at the next tick (R172), everything else is stored; the
recovery window takes nothing while it is closed. -/
def commitWide (s : State) (lo v : Nat) : State :=
  let u := unitOf lo
  if 0x420 ≤ u ∧ u < 0x424 ∧ offsetOf lo = 0x10 then writeRate s (u % 16) v
  else if u = 0xB10 ∧ !recActive s then s
  else regWrite (regWrite s lo (word v)) (lo + 4) (word (v / 2 ^ 32))

/-- Hold a _LO word for a master, with the register it belongs to (R22). -/
def holdLo (s : State) (m : Master) (a : Nat) (v : Word) : State :=
  { s with writeLatch := (m, a, v) :: (dropLatch s m).writeLatch }

/-- A write of a _HI word: it commits with the held low word of this register, otherwise alone; the latch is empty then
(R22). -/
def writeHi (s : State) (m : Master) (lo : Nat) (v : Word) : State :=
  commitWide (dropLatch s m) lo (wideValue s m lo v)

/-- An aligned 32-bit write of BAR 0 by a master; reserved offsets and absent units ignore it (R5, R11). -/
def write32 (s : State) (m : Master) (a : Nat) (v : Word) : State :=
  match wideWord s a with
  | some 0 => holdLo s m a v
  | some _ => writeHi s m (a - 4) v
  | none => if (rowOf s.variant a).isNone then s else writePlain s a v

/-- A 32-bit write of BAR 0; a data core's window is read-only, so its write faults in its thread (R376). -/
def busWrite (s : State) (m : Master) (a : Nat) (v : Word) : State :=
  match m with
  | .core h => if hartRuns s h then trapFree s h 7 else s
  | _ => onBar0 s m fun s => if a % 4 ≠ 0 then badAccess s m .bar0 a 4 true else write32 s m a v

/-- An aligned 64-bit access to the two words of one wide register is atomic and leaves the latches alone (R22); any other
acts as two 32-bit accesses, the lower address first (R20). -/
def write64 (s : State) (m : Master) (a : Nat) (v : DWord) : State :=
  if wideWord s a = some 0 then commitWide s a v.toNat
  else write32 (write32 s m a (v.setWidth 32)) m (a + 4) ((v >>> 32).setWidth 32)
def read64 (s : State) (m : Master) (a : Nat) : DWord × State :=
  if wideWord s a = some 0 then (masterView s m (a + 4) ++ masterView s m a, s)
  else
    let (lo, s) := read32 s m a
    let (hi, s) := read32 s m (a + 4)
    (hi ++ lo, s)

/-! ## Function pages (R275) -/

/-- Bytes of a mailbox slot from an offset. -/
def mbxWrite (t : Tab Byte) (off : Nat) (v : Word) : Tab Byte :=
  (List.range 4).foldl (fun t i => sput (fun _ => (0 : Byte)) t (off + i) (BitVec.ofNat 8 (v.toNat / 2 ^ (8 * i)))) t
def mbxWord (t : Tab Byte) (off : Nat) : Word := word (leNat ((List.range 4).map fun i => tgetD t (off + i) 0))

/-- A write in the mailbox of a VF's page (R303); offsets from 0x4000. -/
def writeVfMbx (s : State) (fid o : Nat) (v : Word) : State :=
  if o < 0x100 then
    (if (fnOf s fid).txBusy then s else modFn s fid fun f => { f with mbxTx := mbxWrite f.mbxTx o v })
  else if o = 0x200 then
    let s := if bits v 1 1 = 1 then vfAck s fid else s
    if bits v 0 0 = 1 then vfSend s fid else s
  else if o = 0x208 then modFn s fid fun f => { f with mbxVec := bits v 7 0 }
  else s

/-- A write in the mailbox of a PF's page: the reply window is the RX slot of the selected VF (R303, R304). -/
def writePfMbx (s : State) (pf o : Nat) (v : Word) : State :=
  if 0x100 ≤ o ∧ o < 0x200 then
    match mbxVf s pf with
    | some f => if (fnOf s f).rxFull then s else modFn s f fun x => { x with mbxRx := mbxWrite x.mbxRx (o - 0x100) v }
    | none => s
  else if o = 0x200 then modFn s pf fun f => { f with mbxSel := bits v 11 0 }
  else if o = 0x204 then
    let s := if bits v 0 0 = 1 then pfAckReq s pf else s
    if bits v 1 1 = 1 then pfSendReply s pf else s
  else if o = 0x208 then modFn s pf fun f => { f with mbxVec := bits v 10 0 }
  else s

/-- A write in the command channel of a PF's page (R359); offsets from 0x8000. A write of 1 clears DONE, REJECTED and
ABORT_DONE. -/
def writeChan (s : State) (pf o : Nat) (v : Word) : State :=
  if o < 0x40 then modChan s pf fun ch => { ch with hdr := tset ch.hdr (o / 4) v }
  else if o = 0x40 then writeSubmit s pf v
  else if o = 0x44 then writeAbort s pf v
  else if o = 0x48 then modChan s pf fun ch => { ch with
    done := ch.done && bits v 2 2 == 0
    rejected := ch.rejected && bits v 3 3 == 0
    abortDone := ch.abortDone && bits v 4 4 == 0 }
  else if o = 0x54 then modChan s pf fun ch => { ch with vec := v &&& 0x800007FF }
  else s

/-- A write in a function's page (R275): unassigned offsets ignore it (R324). -/
def writePage (s : State) (fid o : Nat) (v : Word) : State :=
  if o < 0x1000 then ringDoorbell s fid (o / 4) v
  else if o < 0x2000 then ringCq s fid ((o - 0x1000) / 4) v
  else if o < 0x4000 then s
  else if o < 0x8000 then (if fid < 8 then writePfMbx s fid (o - 0x4000) v else writeVfMbx s fid (o - 0x4000) v)
  else if o < 0xC000 then (if fid < 8 then writeChan s fid (o - 0x8000) v else s)
  else if 0x10000 ≤ o ∧ o < 0x110000 ∧ o % 0x1000 = 0x10 then writeSaSel s fid ((o - 0x10000) / 0x1000) v
  else s

/-- CMD_STATUS and CMD_STATUS_OCC (R359). -/
def viewCmdStatus (s : State) (pf : Nat) : Word :=
  let c := chanOf s pf
  word (s.cores.fwReady.toNat * 32 + c.abortDone.toNat * 16 + c.rejected.toNat * 8 + c.done.toNat * 4 + c.aborting.toNat * 2 +
    c.cmd.isSome.toNat)
def viewCmdOcc (s : State) (pf : Nat) : Word :=
  let c := chanOf s pf
  word (c.doneCnt.toNat * 2 ^ 16 + c.rejectedCnt.toNat * 2 ^ 8 + c.abortDoneCnt.toNat)

/-- The command channel as its page shows it; offsets from 0x8000. -/
def viewChan (s : State) (pf o : Nat) : Word :=
  let c := chanOf s pf
  if o < 0x40 then tgetD c.hdr (o / 4) 0
  else if o = 0x48 then viewCmdStatus s pf
  else if o = 0x4C then viewCmdOcc s pf
  else if o = 0x50 then c.reject
  else if o = 0x54 then c.vec
  else if 0x100 ≤ o ∧ o < 0x120 then (c.reply[(o - 0x100) / 4]?).getD 0
  else 0

/-- 32 bits of a bitmap over the VFs of a PF, by VF index. -/
def vfBitmap (s : State) (pf i : Nat) (p : Fn → Bool) : Word :=
  word (((List.range 32).map fun k =>
    let n := 32 * i + k
    let v := vfBase s pf + n - 1
    if 1 ≤ n && pfOf s v == pf && fnPresent s v && p (fnOf s v) then 2 ^ k else 0).sum)

/-- TX_BUSY and RX_FULL of a VF. -/
def mbxStates (f : Fn) : Word := word (f.rxFull.toNat * 2 + f.txBusy.toNat)

/-- The mailbox as a VF's page shows it, and as a PF's page shows it (R302 to R304); offsets from 0x4000. -/
def viewVfMbx (s : State) (fid o : Nat) : Word :=
  let f := fnOf s fid
  if o < 0x100 then mbxWord f.mbxTx o
  else if o < 0x200 then mbxWord f.mbxRx (o - 0x100)
  else if o = 0x204 then mbxStates f
  else if o = 0x208 then word f.mbxVec
  else 0
def viewPfMbx (s : State) (pf o : Nat) : Word :=
  let sel := (mbxVf s pf).map (fnOf s)
  if o < 0x100 then (match sel with | some f => mbxWord f.mbxTx o | none => 0)
  else if o < 0x200 then (match sel with | some f => mbxWord f.mbxRx (o - 0x100) | none => 0)
  else if o = 0x200 then word (fnOf s pf).mbxSel
  else if o = 0x208 then word (fnOf s pf).mbxVec
  else if o = 0x20C then (match sel with | some f => mbxStates f | none => 0)
  else if 0x400 ≤ o ∧ o < 0x600 then vfBitmap s pf ((o - 0x400) / 4) Fn.mbxPend
  else if 0x600 ≤ o ∧ o < 0x800 then vfBitmap s pf ((o - 0x600) / 4) fun f => !f.rxFull
  else 0

/-- What a function's page reads at an aligned offset (R275, R324, R326): nothing has a side effect, and whatever is not
assigned reads 0. -/
def pageView (s : State) (fid o : Nat) : Word :=
  if o < 0x2000 then 0
  else if o < 0x3000 then
    match (cqidOf s fid ((o - 0x2000) / 4)).bind (tget s.wq.cqs) with
    | some q => word q.shadowPi
    | none => 0
  else if o < 0x4000 then
    match (qidOf s fid ((o - 0x3000) / 4)).bind (tget s.wq.queues) with
    | some q => word (q.state * 2 ^ 16 + q.head)
    | none => 0
  else if o < 0x8000 then (if fid < 8 then viewPfMbx s fid (o - 0x4000) else viewVfMbx s fid (o - 0x4000))
  else if o < 0xC000 then (if fid < 8 then viewChan s fid (o - 0x8000) else 0)
  else if 0x10000 ≤ o ∧ o < 0x110000 then cphPageRead s fid ((o - 0x10000) / 0x1000) (o % 0x1000)
  else 0

/-- The word of a wide register of a function page an offset is: SEQ and the 48-bit counters of a cipher page (R267), 0 the
_LO, 1 the _HI. -/
def pageWide (o : Nat) : Option Nat :=
  let x := o % 0x1000
  if 0x10000 ≤ o ∧ o < 0x110000 ∧ ((0x18 ≤ x ∧ x < 0x40) ∨ (0x100 ≤ x ∧ x < 0x120)) then some (x / 4 % 2) else none

/-- An aligned 32-bit read of a function's page (R21, R275): it changes nothing but the master's own latch. -/
def pageRead32 (s : State) (m : Master) (fid o : Nat) : Word × State :=
  match pageWide o with
  | some 0 => (pageView s fid o, setReadLatch s m (pageView s fid (o + 4)))
  | some _ => (readLatchOf s m, s)
  | none => (pageView s fid o, s)

/-- An aligned 64-bit read of a function's page: the two words of one wide register at once, which leaves the latches alone
(R22); any other acts as two 32-bit reads, the lower address first (R20). -/
def pageRead64 (s : State) (m : Master) (fid o : Nat) : DWord × State :=
  if pageWide o = some 0 then (pageView s fid (o + 4) ++ pageView s fid o, s)
  else
    let (lo, s) := pageRead32 s m fid o
    let (hi, s) := pageRead32 s m fid (o + 4)
    (hi ++ lo, s)

/-! ## MSI-X tables and configuration space -/

/-- What BAR 4 of a function reads (R274): the entries of its MSI-X table, and at its PBA the pending bits. -/
def msixView (s : State) (fid o : Nat) : Word :=
  let pba := if fid < 8 then 0x8000 else 0x1000
  let vec := fun n => tgetD (fnOf s fid).vecs n {}
  if o < pba then
    match o % 16 with
    | 0 => (vec (o / 16)).addr.setWidth 32
    | 4 => ((vec (o / 16)).addr >>> 32).setWidth 32
    | 8 => (vec (o / 16)).data
    | _ => word (vec (o / 16)).masked.toNat
  else if o < pba + msixSize fid / 8 then
    word (((List.range 32).map fun k => if (vec (8 * (o - pba) + k)).pend then 2 ^ k else 0).sum)
  else 0

/-- A write in BAR 4 of a function (R274): table entries of address, data and mask; the pending bits take none. A message
that is pending goes out once its conditions hold (R296). -/
def writeMsix (s : State) (fid o : Nat) (v : Word) : State :=
  let n := o / 16
  if msixSize fid ≤ n then s
  else
    let set := fun (f : MsixVec → MsixVec) => modFn s fid fun r => { r with vecs := tmod r.vecs n {} f }
    match o % 16 with
    | 0 => set fun x => { x with addr := BitVec.ofNat 64 (x.addr.toNat / 2 ^ 32 * 2 ^ 32 + v.toNat) }
    | 4 => set fun x => { x with addr := BitVec.ofNat 64 (v.toNat * 2 ^ 32 + x.addr.toNat % 2 ^ 32) }
    | 8 => set fun x => { x with data := v }
    | _ => msixFlush (set fun x => { x with masked := bits v 0 0 == 1 }) fid

/-- Disable PRI (R310): every held operation fails. -/
def disablePri (s : State) (fid : Nat) : State :=
  let t := modFn s fid fun f => { f with pri := false }
  (fnOf s fid).pageReqs.foldl (fun s r => failPageReq s fid r) t

/-- Disable ATS (R308): nothing is cached for the function any more. -/
def disableAts (s : State) (fid : Nat) : State :=
  let s := modFn s fid fun f => { f with ats := false }
  { s with host := { s.host with dtu := s.host.dtu.filter fun e => e.fid != fid } }

/-- The Command register: Memory Space Enable and Bus Master Enable (R276, R286, R287). -/
def writeCommand (s : State) (fid : Nat) (v : Word) : State :=
  let s := modFn s fid fun f => { f with memEn := bits v 1 1 == 1 }
  if bits v 2 2 = 1 then msixFlush (setBme s fid) fid else clearBme s fid

/-- A write of a configuration field, by the model's own field numbers (assumption 12, DESIGN CHOICE): 0 Command, 1 power state, 2 Initiate
FLR, 3 MSI-X control, 4 VF Enable, 5 NumVFs, 6 ATS Enable, 7 PRI Enable, 8 PRI allocation, 9 AER uncorrectable status,
10 AER uncorrectable mask, 11 tag width, 12 ASPM settings, 13 AER uncorrectable severity, from 48 on the BARs; every other
field is read-only. -/
def writeCfg (s : State) (fid n : Nat) (v : Word) : State :=
  let b := bits v 0 0 == 1
  match n with
  | 0 => writeCommand s fid v
  | 1 => if bits v 1 0 = 3 then enterD3 s fid else if bits v 1 0 = 0 then leaveD3 s fid else s
  | 2 => if b then startFlr s fid else s
  | 3 => msixFlush (modFn s fid fun f => { f with msixEn := bits v 15 15 == 1, msixMask := bits v 14 14 == 1 }) fid
  | 4 => if fid < 8 then setVfs s fid b (fnOf s fid).numVfs else s
  | 5 => if fid < 8 then setVfs s fid (fnOf s fid).vfEnable (bits v 15 0) else s
  | 6 => if b then modFn s fid fun f => { f with ats := true } else disableAts s fid
  | 7 => if b then modFn s fid fun f => { f with pri := true } else disablePri s fid
  | 8 => sendPageReqs (modFn s fid fun f => { f with priAlloc := min 512 (bits v 15 0) }) fid
  | 9 => modFn s fid fun f => { f with aer := f.aer &&& ~~~v }
  | 10 => modFn s fid fun f => { f with aerMask := v }
  | 11 => modFn s fid fun f => { f with tagMode := min 2 (bits v 1 0) }
  | 12 => modFn s fid fun f => { f with aspm := { l1 := b, l11 := bits v 1 1 == 1, l12 := bits v 2 2 == 1 } }
  | 13 => modFn s fid fun f => { f with aerSev := v }
  | _ => if 48 ≤ n then writeBar s fid ((n - 48) / 2) (n % 2 == 1) v else s

/-! ## The commands -/

/-- An access of a function to its own BAR 2 or BAR 4. -/
def ownAccess (s : State) (m : Master) (fid : Nat) (f : State → State) : State :=
  if m = .fn fid then onPage s fid f else s

/-- A 32-bit read of any space, answered to the master (R20, R276); a configuration field is read whole. -/
def readAt (s : State) (m : Master) (sp : Space) (a : Nat) : State :=
  match sp with
  | .bar0 => busRead s m a
  | .page fid => ownAccess s m fid fun s => answerRead s m sp a 4 fun s =>
      let (v, s) := pageRead32 s m fid a
      (v.toNat, s)
  | .msix fid => ownAccess s m fid fun s => answerRead s m sp a 4 fun s => ((msixView s fid a).toNat, s)
  | .cfg fid => if m = .fn fid then onCfg s fid fun s => emit s (.busData m a (toLe 4 (cfgView s fid a).toNat)) else s

/-- A 32-bit write of any space (R20, R276). -/
def writeAt (s : State) (m : Master) (sp : Space) (a : Nat) (v : Word) : State :=
  match sp with
  | .bar0 => busWrite s m a v
  | .page fid => ownAccess s m fid fun s =>
      if a % 4 ≠ 0 then badAccess s m sp a 4 true else writePage s fid a v
  | .msix fid => ownAccess s m fid fun s =>
      if a % 4 ≠ 0 then badAccess s m sp a 4 true else writeMsix s fid a v
  | .cfg fid => if m = .fn fid then onCfg s fid fun s => writeCfg s fid a v else s

/-- REGISTER_WRITE (R13): an aligned 32-bit write; one that is not aligned is recorded (R20). -/
def execRegisterWrite (m : Master) (sp : Space) (addr : Nat) (data : Word) (s : State) :
    Host.Outcome State Fault Refusal :=
  liveReset s fun s => writeAt s m sp addr data

/-- The access is an aligned 32-bit or 64-bit one, which R20 accepts. -/
def sizeOk (addr size : Nat) : Bool := (size == 4 && addr % 4 == 0) || (size == 8 && addr % 8 == 0)

/-- ILLEGAL_SIZE_ACCESS (R20, R513). -/
def execIllegalSizeAccess (m : Master) (sp : Space) (addr size : Nat) (isWrite : Bool) (s : State) :
    Host.Outcome State Fault Refusal :=
  live s fun s =>
    if sizeOk addr size then s
    else
      match sp, m with
      | .bar0, .core h =>
        if !hartRuns s h then s
        else if isWrite then trapFree s h 7
        else onRead s m addr fun s => badAccess s m sp addr size isWrite
      | .bar0, _ => onBar0 s m fun s => badAccess s m sp addr size isWrite
      | .page fid, _ => ownAccess s m fid fun s => badAccess s m sp addr size isWrite
      | .msix fid, _ => ownAccess s m fid fun s => badAccess s m sp addr size isWrite
      | .cfg _, _ => s

/-- WIDE_LO_READ (R21). -/
def execWideLoRead (m : Master) (r : RegAt) (s : State) : Host.Outcome State Fault Refusal :=
  live s fun s => readAt s m r.sp r.addr

/-- WIDE_HI_READ (R21). -/
def execWideHiRead (m : Master) (r : RegAt) (s : State) : Host.Outcome State Fault Refusal :=
  live s fun s => readAt s m r.sp r.addr

/-- READ_CLEAR (R6). -/
def execReadClear (m : Master) (r : RegAt) (s : State) : Host.Outcome State Fault Refusal :=
  live s fun s => readAt s m r.sp r.addr

/-- WIDE_LO_WRITE (R22). -/
def execWideLoWrite (m : Master) (addr : Nat) (data : Word) (s : State) : Host.Outcome State Fault Refusal :=
  liveReset s fun s => busWrite s m addr data

/-- WIDE_HI_WRITE (R22). -/
def execWideHiWrite (m : Master) (addr : Nat) (data : Word) (s : State) : Host.Outcome State Fault Refusal :=
  liveReset s fun s => busWrite s m addr data

/-- A 64-bit read of BAR 0, answered to the master; a 64-bit write. -/
def busRead64 (s : State) (m : Master) (a : Nat) : State :=
  onRead s m a fun s => answerRead s m .bar0 a 8 fun s =>
    let (v, s) := read64 s m a
    (v.toNat, s)
def busWrite64 (s : State) (m : Master) (a : Nat) (v : DWord) : State :=
  match m with
  | .core h => if hartRuns s h then trapFree s h 7 else s
  | _ => onBar0 s m fun s => if a % 8 ≠ 0 then badAccess s m .bar0 a 8 true else write64 s m a v

/-- A 64-bit read of any space; configuration fields are not held to R20. -/
def readAt64 (s : State) (m : Master) (sp : Space) (a : Nat) : State :=
  match sp with
  | .bar0 => busRead64 s m a
  | .page fid => ownAccess s m fid fun s => answerRead s m sp a 8 fun s =>
      let (v, s) := pageRead64 s m fid a
      (v.toNat, s)
  | .msix fid => ownAccess s m fid fun s => answerRead s m sp a 8 fun s =>
      ((msixView s fid (a + 4)).toNat * 2 ^ 32 + (msixView s fid a).toNat, s)
  | .cfg _ => s

/-- A 64-bit write of any space: in a page or an MSI-X table it acts as two 32-bit writes, the lower address first (R20). -/
def writeAt64 (s : State) (m : Master) (sp : Space) (a : Nat) (v : DWord) : State :=
  match sp with
  | .bar0 => busWrite64 s m a v
  | .page fid => ownAccess s m fid fun s =>
      if a % 8 ≠ 0 then badAccess s m sp a 8 true
      else writePage (writePage s fid a (v.setWidth 32)) fid (a + 4) ((v >>> 32).setWidth 32)
  | .msix fid => ownAccess s m fid fun s =>
      if a % 8 ≠ 0 then badAccess s m sp a 8 true
      else writeMsix (writeMsix s fid a (v.setWidth 32)) fid (a + 4) ((v >>> 32).setWidth 32)
  | .cfg _ => s

/-- WIDE_64BIT_ACCESS (R20, R22): a write of `data`, or a read. -/
def execWide64bitAccess (m : Master) (r : RegAt) (data : Option DWord) (s : State) :
    Host.Outcome State Fault Refusal :=
  liveReset s fun s =>
    match data with
    | some v => writeAt64 s m r.sp r.addr v
    | none => readAt64 s m r.sp r.addr

/-- Update-DR of DBG_ACCESS (R511): WRITE in bit 64, the offset in [63:32], the data in [31:0]. What the next Capture-DR
returns stands in `jtagDr`: bit 64 as done, and the data read. -/
def dbgAccess (s : State) (dr : BitVec 65) : State :=
  let a := dr.toNat / 2 ^ 32 % 2 ^ 32
  let answer := fun (s : State) (v : Nat) => { s with obs := { s.obs with jtagDr := BitVec.ofNat 65 (2 ^ 64 + v) } }
  if dr.getLsbD 64 then answer (busWrite s .jtag a (dr.setWidth 32)) 0
  else if a % 4 ≠ 0 then answer (badAccess s .jtag .bar0 a 4 false) 0
  else
    let (v, s) := read32 s .jtag a
    answer s v.toNat

/-- DBG_ACCESS (R511): while debug is unlocked, and not while frozen. -/
def execDbgAccess (dr : BitVec 65) (s : State) : Host.Outcome State Fault Refusal :=
  liveReset s fun s => if s.obs.unlocked then dbgAccess s dr else s

end Sys2Proof.Machine
end

