-- ==== Sys2Proof/Machine/Dispatch.lean ====
section
/-! DEFINITION. One arm per command: the meaning it calls. -/

namespace Sys2Proof.Machine

def exec (i : Instr) (s : State) : Host.Outcome State Fault Refusal :=
  match i with
  | .registerWrite m sp addr data => Sys2Proof.Machine.execRegisterWrite m sp addr data s
  | .illegalSizeAccess m sp addr size isWrite => Sys2Proof.Machine.execIllegalSizeAccess m sp addr size isWrite s
  | .wideLoRead m r => Sys2Proof.Machine.execWideLoRead m r s
  | .wideHiRead m r => Sys2Proof.Machine.execWideHiRead m r s
  | .wideLoWrite m addr data => Sys2Proof.Machine.execWideLoWrite m addr data s
  | .wideHiWrite m addr data => Sys2Proof.Machine.execWideHiWrite m addr data s
  | .wide64bitAccess m r data => Sys2Proof.Machine.execWide64bitAccess m r data s
  | .readClear m r => Sys2Proof.Machine.execReadClear m r s
  | .rootFallback => Sys2Proof.Machine.execRootFallback s
  | .supplyDroop mon slack => Sys2Proof.Machine.execSupplyDroop mon slack s
  | .stretchEnd rail edges => Sys2Proof.Machine.execStretchEnd rail edges s
  | .gradeRequestWrite m v => Sys2Proof.Machine.execGradeRequestWrite m v s
  | .gradeSet pf buf => Sys2Proof.Machine.execGradeSet pf buf s
  | .drainAcceptanceStop => Sys2Proof.Machine.execDrainAcceptanceStop s
  | .gradeTransitionComplete => Sys2Proof.Machine.execGradeTransitionComplete s
  | .drainIdleReached => Sys2Proof.Machine.execDrainIdleReached s
  | .drainTimeout => Sys2Proof.Machine.execDrainTimeout s
  | .shapeWrite m lg v => Sys2Proof.Machine.execShapeWrite m lg v s
  | .portEnable m mac v => Sys2Proof.Machine.execPortEnable m mac v s
  | .portDisable m mac v => Sys2Proof.Machine.execPortDisable m mac v s
  | .laneRetune lane eye => Sys2Proof.Machine.execLaneRetune lane eye s
  | .txFfeWrite m lane v => Sys2Proof.Machine.execTxFfeWrite m lane v s
  | .frameReceive mac rx => Sys2Proof.Machine.execFrameReceive mac rx s
  | .pauseReceive mac quanta => Sys2Proof.Machine.execPauseReceive mac quanta s
  | .pfcReceive mac enable quanta => Sys2Proof.Machine.execPfcReceive mac enable quanta s
  | .pauseTimerExpiry mac cls => Sys2Proof.Machine.execPauseTimerExpiry mac cls s
  | .xoffRefresh mac prio => Sys2Proof.Machine.execXoffRefresh mac prio s
  | .qiPartnerWrite m mac v => Sys2Proof.Machine.execQiPartnerWrite m mac v s
  | .lldpduTransmit l => Sys2Proof.Machine.execLldpduTransmit l s
  | .lpiEntry mac => Sys2Proof.Machine.execLpiEntry mac s
  | .lpiWake mac => Sys2Proof.Machine.execLpiWake mac s
  | .linkDown mac => Sys2Proof.Machine.execLinkDown mac s
  | .linkUp p => Sys2Proof.Machine.execLinkUp p s
  | .linkReturn mac => Sys2Proof.Machine.execLinkReturn mac s
  | .holdExpiry mac => Sys2Proof.Machine.execHoldExpiry mac s
  | .inletAdmission mac => Sys2Proof.Machine.execInletAdmission mac s
  | .thresholdRecompute => Sys2Proof.Machine.execThresholdRecompute s
  | .hbxCfgWrite m a v => Sys2Proof.Machine.execHbxCfgWrite m a v s
  | .egressCfgWrite m a v => Sys2Proof.Machine.execEgressCfgWrite m a v s
  | .passStart pipe badWord => Sys2Proof.Machine.execPassStart pipe badWord s
  | .frameRetire pipe translated => Sys2Proof.Machine.execFrameRetire pipe translated s
  | .sampleDeliver => Sys2Proof.Machine.execSampleDeliver s
  | .pipeGraphSelWrite m pipe v => Sys2Proof.Machine.execPipeGraphSelWrite m pipe v s
  | .pipeInletClassWrite m pipe c v => Sys2Proof.Machine.execPipeInletClassWrite m pipe c v s
  | .pipeJoin pf buf => Sys2Proof.Machine.execPipeJoin pf buf s
  | .pipeSplit pf buf => Sys2Proof.Machine.execPipeSplit pf buf s
  | .reorderEpoch lanes pair => Sys2Proof.Machine.execReorderEpoch lanes pair s
  | .pipeFailure pipe cause => Sys2Proof.Machine.execPipeFailure pipe cause s
  | .pipeBist pf buf => Sys2Proof.Machine.execPipeBist pf buf s
  | .pipeBistDone pipe pass => Sys2Proof.Machine.execPipeBistDone pipe pass s
  | .pipeRestore pf buf => Sys2Proof.Machine.execPipeRestore pf buf s
  | .egressAdmission mac => Sys2Proof.Machine.execEgressAdmission mac s
  | .dklClassCfgWrite m mac cls v => Sys2Proof.Machine.execDklClassCfgWrite m mac cls v s
  | .dklPortCfgWrite m mac v => Sys2Proof.Machine.execDklPortCfgWrite m mac v s
  | .dklListWrite pf buf => Sys2Proof.Machine.execDklListWrite pf buf s
  | .dklListCommit pf buf => Sys2Proof.Machine.execDklListCommit pf buf s
  | .dklListRead pf buf => Sys2Proof.Machine.execDklListRead pf buf s
  | .listSwap mac => Sys2Proof.Machine.execListSwap mac s
  | .cycleStart mac => Sys2Proof.Machine.execCycleStart mac s
  | .gateEntryStart mac entry => Sys2Proof.Machine.execGateEntryStart mac entry s
  | .holdStart mac => Sys2Proof.Machine.execHoldStart mac s
  | .frameTxStart mac => Sys2Proof.Machine.execFrameTxStart mac s
  | .fragmentResume mac => Sys2Proof.Machine.execFragmentResume mac s
  | .frameTxEnd mac cap => Sys2Proof.Machine.execFrameTxEnd mac cap s
  | .tsqDeferredWrite c => Sys2Proof.Machine.execTsqDeferredWrite c s
  | .windowClose mac cls => Sys2Proof.Machine.execWindowClose mac cls s
  | .verifyTimeout mac => Sys2Proof.Machine.execVerifyTimeout mac s
  | .verifyMpacketReceive mac => Sys2Proof.Machine.execVerifyMpacketReceive mac s
  | .respondMpacketReceive mac => Sys2Proof.Machine.execRespondMpacketReceive mac s
  | .frerResetTimeout h => Sys2Proof.Machine.execFrerResetTimeout h s
  | .frerStreamSet pf buf => Sys2Proof.Machine.execFrerStreamSet pf buf s
  | .frerStreamClear pf buf => Sys2Proof.Machine.execFrerStreamClear pf buf s
  | .frerStats pf buf => Sys2Proof.Machine.execFrerStats pf buf s
  | .trigSet pf buf => Sys2Proof.Machine.execTrigSet pf buf s
  | .trigClear pf buf => Sys2Proof.Machine.execTrigClear pf buf s
  | .triggerTimeFire t => Sys2Proof.Machine.execTriggerTimeFire t s
  | .triggerEdgeFire t => Sys2Proof.Machine.execTriggerEdgeFire t s
  | .wakeAhead mac => Sys2Proof.Machine.execWakeAhead mac s
  | .windowPublish mac cls k => Sys2Proof.Machine.execWindowPublish mac cls k s
  | .phcRate pf buf => Sys2Proof.Machine.execPhcRate pf buf s
  | .phcRateRegisterCommit m n v => Sys2Proof.Machine.execPhcRateRegisterCommit m n v s
  | .phcStep pf buf => Sys2Proof.Machine.execPhcStep pf buf s
  | .phcStepGo m n v => Sys2Proof.Machine.execPhcStepGo m n v s
  | .phcLock pf buf => Sys2Proof.Machine.execPhcLock pf buf s
  | .phcLockedWrite m n v => Sys2Proof.Machine.execPhcLockedWrite m n v s
  | .phcSnapshot m n v => Sys2Proof.Machine.execPhcSnapshot m n v s
  | .phcRead pf buf => Sys2Proof.Machine.execPhcRead pf buf s
  | .ppsInEdge n falling cap => Sys2Proof.Machine.execPpsInEdge n falling cap s
  | .ppsInLoss n => Sys2Proof.Machine.execPpsInLoss n s
  | .ppsOutPulseStart n => Sys2Proof.Machine.execPpsOutPulseStart n s
  | .ppsOutPulseEnd n => Sys2Proof.Machine.execPpsOutPulseEnd n s
  | .ringFrameReceive port rx => Sys2Proof.Machine.execRingFrameReceive port rx s
  | .delayMeasure port t1 => Sys2Proof.Machine.execDelayMeasure port t1 s
  | .syncSend cap => Sys2Proof.Machine.execSyncSend cap s
  | .broadcastReturnTimeout port => Sys2Proof.Machine.execBroadcastReturnTimeout port s
  | .ringInsertOpen => Sys2Proof.Machine.execRingInsertOpen s
  | .ringInsertSend => Sys2Proof.Machine.execRingInsertSend s
  | .ringInsertTimeout port => Sys2Proof.Machine.execRingInsertTimeout port s
  | .ringInsertRetry => Sys2Proof.Machine.execRingInsertRetry s
  | .ringInputLos port => Sys2Proof.Machine.execRingInputLos port s
  | .crgCfgWrite m v => Sys2Proof.Machine.execCrgCfgWrite m v s
  | .crgMsgSend pf buf => Sys2Proof.Machine.execCrgMsgSend pf buf s
  | .wovConnCreate pf buf => Sys2Proof.Machine.execWovConnCreate pf buf s
  | .wovConnClose pf buf => Sys2Proof.Machine.execWovConnClose pf buf s
  | .connDrainEnd n => Sys2Proof.Machine.execConnDrainEnd n s
  | .wovConnRekey pf buf => Sys2Proof.Machine.execWovConnRekey pf buf s
  | .wovConnQuery pf buf => Sys2Proof.Machine.execWovConnQuery pf buf s
  | .wovWinOpen pf buf => Sys2Proof.Machine.execWovWinOpen pf buf s
  | .wovWinRevoke pf buf => Sys2Proof.Machine.execWovWinRevoke pf buf s
  | .woveContextLoaded n good => Sys2Proof.Machine.execWoveContextLoaded n good s
  | .wovePacketSend n payload => Sys2Proof.Machine.execWovePacketSend n payload s
  | .wovePacketReceive mac p => Sys2Proof.Machine.execWovePacketReceive mac p s
  | .ackCoalTimeout n => Sys2Proof.Machine.execAckCoalTimeout n s
  | .pathSuspectEnd n path => Sys2Proof.Machine.execPathSuspectEnd n path s
  | .retransmitTimeout n => Sys2Proof.Machine.execRetransmitTimeout n s
  | .rnrRetry n psn => Sys2Proof.Machine.execRnrRetry n psn s
  | .rateUpdate n => Sys2Proof.Machine.execRateUpdate n s
  | .cphSaWrite pf buf => Sys2Proof.Machine.execCphSaWrite pf buf s
  | .cphSaClear pf buf => Sys2Proof.Machine.execCphSaClear pf buf s
  | .cphSaQuery pf buf => Sys2Proof.Machine.execCphSaQuery pf buf s
  | .saFetchDone n tagGood ecc => Sys2Proof.Machine.execSaFetchDone n tagGood ecc s
  | .saWriteback n => Sys2Proof.Machine.execSaWriteback n s
  | .cphPortCfgWrite m mac v => Sys2Proof.Machine.execCphPortCfgWrite m mac v s
  | .inlineCipherFrame lane => Sys2Proof.Machine.execInlineCipherFrame lane s
  | .lookasideJobAssign n => Sys2Proof.Machine.execLookasideJobAssign n s
  | .lookasideJobDone n src aad => Sys2Proof.Machine.execLookasideJobDone n src aad s
  | .transformJobDone n src dict => Sys2Proof.Machine.execTransformJobDone n src dict s
  | .cphLaneJoin pf buf => Sys2Proof.Machine.execCphLaneJoin pf buf s
  | .cphLaneSplit pf buf => Sys2Proof.Machine.execCphLaneSplit pf buf s
  | .katRun lane pass => Sys2Proof.Machine.execKatRun lane pass s
  | .laneFailure lane cause => Sys2Proof.Machine.execLaneFailure lane cause s
  | .cphLaneBist pf buf => Sys2Proof.Machine.execCphLaneBist pf buf s
  | .laneBistDone lane pass => Sys2Proof.Machine.execLaneBistDone lane pass s
  | .cphLaneRestore pf buf => Sys2Proof.Machine.execCphLaneRestore pf buf s
  | .cphPageSaSelWrite fid k v => Sys2Proof.Machine.execCphPageSaSelWrite fid k v s
  | .hostLinkUp k speed width flit => Sys2Proof.Machine.execHostLinkUp k speed width flit s
  | .aspmL1Request k idle => Sys2Proof.Machine.execAspmL1Request k idle s
  | .l0pNarrow k => Sys2Proof.Machine.execL0pNarrow k s
  | .l0pWiden k => Sys2Proof.Machine.execL0pWiden k s
  | .linkWakeLead k => Sys2Proof.Machine.execLinkWakeLead k s
  | .d3hotEntry fid => Sys2Proof.Machine.execD3hotEntry fid s
  | .d0Return fid => Sys2Proof.Machine.execD0Return fid s
  | .perstAssert => Sys2Proof.Machine.execPerstAssert s
  | .perstDeassert => Sys2Proof.Machine.execPerstDeassert s
  | .hotReset k => Sys2Proof.Machine.execHotReset k s
  | .configReady k => Sys2Proof.Machine.execConfigReady k s
  | .flrInitiate fid => Sys2Proof.Machine.execFlrInitiate fid s
  | .flrComplete fid => Sys2Proof.Machine.execFlrComplete fid s
  | .bmeClear fid => Sys2Proof.Machine.execBmeClear fid s
  | .bmeSet fid => Sys2Proof.Machine.execBmeSet fid s
  | .vfRemove fid => Sys2Proof.Machine.execVfRemove fid s
  | .hostCompletionReceive k fid tag c => Sys2Proof.Machine.execHostCompletionReceive k fid tag c s
  | .quarantineExpiry fid tag => Sys2Proof.Machine.execQuarantineExpiry fid tag s
  | .completionTimeout fid tag => Sys2Proof.Machine.execCompletionTimeout fid tag s
  | .hostLost k => Sys2Proof.Machine.execHostLost k s
  | .hostReturn k => Sys2Proof.Machine.execHostReturn k s
  | .atsInvalidation fid pasid iova len => Sys2Proof.Machine.execAtsInvalidation fid pasid iova len s
  | .atsInvalidationComplete fid => Sys2Proof.Machine.execAtsInvalidationComplete fid s
  | .pageResponseReceive fid req good => Sys2Proof.Machine.execPageResponseReceive fid req good s
  | .priTimeout fid req => Sys2Proof.Machine.execPriTimeout fid req s
  | .vfMbxSend fid => Sys2Proof.Machine.execVfMbxSend fid s
  | .vfMbxAck fid => Sys2Proof.Machine.execVfMbxAck fid s
  | .pfMbxAckReq pf => Sys2Proof.Machine.execPfMbxAckReq pf s
  | .pfMbxSendReply pf => Sys2Proof.Machine.execPfMbxSendReply pf s
  | .fnQuotaSet pf buf => Sys2Proof.Machine.execFnQuotaSet pf buf s
  | .fnQuotaQuery pf buf => Sys2Proof.Machine.execFnQuotaQuery pf buf s
  | .fnResAssign pf buf => Sys2Proof.Machine.execFnResAssign pf buf s
  | .fnResRelease pf buf => Sys2Proof.Machine.execFnResRelease pf buf s
  | .fnDirtyStart pf buf => Sys2Proof.Machine.execFnDirtyStart pf buf s
  | .fnDirtySwap pf buf => Sys2Proof.Machine.execFnDirtySwap pf buf s
  | .fnDirtyStop pf buf => Sys2Proof.Machine.execFnDirtyStop pf buf s
  | .dirtyWordWrite fid w => Sys2Proof.Machine.execDirtyWordWrite fid w s
  | .dirtyWriteFail fid => Sys2Proof.Machine.execDirtyWriteFail fid s
  | .sealedReplyRelease pf => Sys2Proof.Machine.execSealedReplyRelease pf s
  | .queueDoorbell fid idx v => Sys2Proof.Machine.execQueueDoorbell fid idx v s
  | .descriptorFetch qid d => Sys2Proof.Machine.execDescriptorFetch qid d s
  | .heldCompletionWrite cqid => Sys2Proof.Machine.execHeldCompletionWrite cqid s
  | .shadowWrite cqid translated => Sys2Proof.Machine.execShadowWrite cqid translated s
  | .cqDoorbell fid idx v => Sys2Proof.Machine.execCqDoorbell fid idx v s
  | .moderationTimeout cqid => Sys2Proof.Machine.execModerationTimeout cqid s
  | .fwMsgExecute buf => Sys2Proof.Machine.execFwMsgExecute buf s
  | .qCreate pf buf => Sys2Proof.Machine.execQCreate pf buf s
  | .qStop pf buf => Sys2Proof.Machine.execQStop pf buf s
  | .queueStopDone qid => Sys2Proof.Machine.execQueueStopDone qid s
  | .qResume pf buf => Sys2Proof.Machine.execQResume pf buf s
  | .qDestroy pf buf => Sys2Proof.Machine.execQDestroy pf buf s
  | .cqCreate pf buf => Sys2Proof.Machine.execCqCreate pf buf s
  | .cqModerate pf buf => Sys2Proof.Machine.execCqModerate pf buf s
  | .cqDestroy pf buf => Sys2Proof.Machine.execCqDestroy pf buf s
  | .cmdSubmit pf v => Sys2Proof.Machine.execCmdSubmit pf v s
  | .cmdAbort pf v => Sys2Proof.Machine.execCmdAbort pf v s
  | .abortDone pf => Sys2Proof.Machine.execAbortDone pf s
  | .commandReplyRelease pf => Sys2Proof.Machine.execCommandReplyRelease pf s
  | .nop pf buf => Sys2Proof.Machine.execNop pf buf s
  | .devInfo pf buf => Sys2Proof.Machine.execDevInfo pf buf s
  | .devReset pf buf => Sys2Proof.Machine.execDevReset pf buf s
  | .smbEnable pf buf => Sys2Proof.Machine.execSmbEnable pf buf s
  | .graphWrite pf buf => Sys2Proof.Machine.execGraphWrite pf buf s
  | .graphStageWrite pf buf => Sys2Proof.Machine.execGraphStageWrite pf buf s
  | .graphCommit pf buf => Sys2Proof.Machine.execGraphCommit pf buf s
  | .progWrite pf buf => Sys2Proof.Machine.execProgWrite pf buf s
  | .templateWrite pf buf => Sys2Proof.Machine.execTemplateWrite pf buf s
  | .emInsert pf buf => Sys2Proof.Machine.execEmInsert pf buf s
  | .emDelete pf buf => Sys2Proof.Machine.execEmDelete pf buf s
  | .tcamWrite pf buf => Sys2Proof.Machine.execTcamWrite pf buf s
  | .tcamClear pf buf => Sys2Proof.Machine.execTcamClear pf buf s
  | .lpmAdd pf buf => Sys2Proof.Machine.execLpmAdd pf buf s
  | .lpmDelete pf buf => Sys2Proof.Machine.execLpmDelete pf buf s
  | .meterSet pf buf => Sys2Proof.Machine.execMeterSet pf buf s
  | .mirrorSet pf buf => Sys2Proof.Machine.execMirrorSet pf buf s
  | .rssKeySet pf buf => Sys2Proof.Machine.execRssKeySet pf buf s
  | .rssIndirSet pf buf => Sys2Proof.Machine.execRssIndirSet pf buf s
  | .counterRead pf buf => Sys2Proof.Machine.execCounterRead pf buf s
  | .coreImageLoad pf buf => Sys2Proof.Machine.execCoreImageLoad pf buf s
  | .quireStart pf buf pass => Sys2Proof.Machine.execQuireStart pf buf pass s
  | .quireStop pf buf => Sys2Proof.Machine.execQuireStop pf buf s
  | .quireQuery pf buf => Sys2Proof.Machine.execQuireQuery pf buf s
  | .marchRun pf buf => Sys2Proof.Machine.execMarchRun pf buf s
  | .marchRunDone found => Sys2Proof.Machine.execMarchRunDone found s
  | .marchStatus pf buf => Sys2Proof.Machine.execMarchStatus pf buf s
  | .hbmCfg pf buf => Sys2Proof.Machine.execHbmCfg pf buf s
  | .hbmRowRepair pf buf => Sys2Proof.Machine.execHbmRowRepair pf buf s
  | .hbmQuery pf buf => Sys2Proof.Machine.execHbmQuery pf buf s
  | .dryCapSet pf buf => Sys2Proof.Machine.execDryCapSet pf buf s
  | .dryDomainSet pf buf => Sys2Proof.Machine.execDryDomainSet pf buf s
  | .dryQuery pf buf => Sys2Proof.Machine.execDryQuery pf buf s
  | .pmuCfg pf buf => Sys2Proof.Machine.execPmuCfg pf buf s
  | .trcCfg pf buf => Sys2Proof.Machine.execTrcCfg pf buf s
  | .errlogRead pf buf => Sys2Proof.Machine.execErrlogRead pf buf s
  | .freezeArm pf buf => Sys2Proof.Machine.execFreezeArm pf buf s
  | .freezeDisarm pf buf => Sys2Proof.Machine.execFreezeDisarm pf buf s
  | .dbgUnlock pf buf => Sys2Proof.Machine.execDbgUnlock pf buf s
  | .fwWrite pf buf => Sys2Proof.Machine.execFwWrite pf buf s
  | .fwActivate pf buf => Sys2Proof.Machine.execFwActivate pf buf s
  | .attestGet pf buf => Sys2Proof.Machine.execAttestGet pf buf s
  | .minverSet pf buf => Sys2Proof.Machine.execMinverSet pf buf s
  | .fwQuery pf buf => Sys2Proof.Machine.execFwQuery pf buf s
  | .chRecv h r rs1 => Sys2Proof.Machine.execChRecv h r rs1 s
  | .chTryrecv h r rs1 => Sys2Proof.Machine.execChTryrecv h r rs1 s
  | .chSend h rs1 rs2 => Sys2Proof.Machine.execChSend h rs1 rs2 s
  | .chSendl h rs1 rs2 => Sys2Proof.Machine.execChSendl h rs1 rs2 s
  | .chAck h => Sys2Proof.Machine.execChAck h s
  | .chWait h r rs1 => Sys2Proof.Machine.execChWait h r rs1 s
  | .chReplay h rs1 rs2 => Sys2Proof.Machine.execChReplay h rs1 rs2 s
  | .channelItemDeliver c p => Sys2Proof.Machine.execChannelItemDeliver c p s
  | .threadWake h => Sys2Proof.Machine.execThreadWake h s
  | .timerCmpMatch core => Sys2Proof.Machine.execTimerCmpMatch core s
  | .threadCtxAccess h r w => Sys2Proof.Machine.execThreadCtxAccess h r w s
  | .threadGo h mask => Sys2Proof.Machine.execThreadGo h mask s
  | .threadFault h cause tval => Sys2Proof.Machine.execThreadFault h cause tval s
  | .coreFailure core cause => Sys2Proof.Machine.execCoreFailure core cause s
  | .lockstepMismatch pc0 pc1 => Sys2Proof.Machine.execLockstepMismatch pc0 pc1 s
  | .firmwareRestartDone => Sys2Proof.Machine.execFirmwareRestartDone s
  | .spmBankOwnerWrite m n v => Sys2Proof.Machine.execSpmBankOwnerWrite m n v s
  | .handoverComplete n => Sys2Proof.Machine.execHandoverComplete n s
  | .spmBankCouserWrite m n v => Sys2Proof.Machine.execSpmBankCouserWrite m n v s
  | .spmScrub n w e => Sys2Proof.Machine.execSpmScrub n w e s
  | .hbmPatrolScrub k l e passEnd => Sys2Proof.Machine.execHbmPatrolScrub k l e passEnd s
  | .hbmRefresh k t => Sys2Proof.Machine.execHbmRefresh k t s
  | .domainCloseStart d => Sys2Proof.Machine.execDomainCloseStart d s
  | .domainDrainLimit d => Sys2Proof.Machine.execDomainDrainLimit d s
  | .domainClosed d => Sys2Proof.Machine.execDomainClosed d s
  | .domainOpenDone d pass => Sys2Proof.Machine.execDomainOpenDone d pass s
  | .accountingStep spent win => Sys2Proof.Machine.execAccountingStep spent win s
  | .estimateCorrection reported deciWatt floor => Sys2Proof.Machine.execEstimateCorrection reported deciWatt floor s
  | .capCheck => Sys2Proof.Machine.execCapCheck s
  | .capStepUndo => Sys2Proof.Machine.execCapStepUndo s
  | .coreClkRaise q reported => Sys2Proof.Machine.execCoreClkRaise q reported s
  | .rampStart mac late => Sys2Proof.Machine.execRampStart mac late s
  | .rampEnd mac => Sys2Proof.Machine.execRampEnd mac s
  | .thermalForecast sensor temp power => Sys2Proof.Machine.execThermalForecast sensor temp power s
  | .thermalCapStep => Sys2Proof.Machine.execThermalCapStep s
  | .thermalEmergency sensor temp => Sys2Proof.Machine.execThermalEmergency sensor temp s
  | .thermalEmergencyEnd => Sys2Proof.Machine.execThermalEmergencyEnd s
  | .thermalTrip sensor => Sys2Proof.Machine.execThermalTrip sensor s
  | .avsLoop rail slacks good => Sys2Proof.Machine.execAvsLoop rail slacks good s
  | .marginExhausted rail => Sys2Proof.Machine.execMarginExhausted rail s
  | .avsFault rail => Sys2Proof.Machine.execAvsFault rail s
  | .porAssert => Sys2Proof.Machine.execPorAssert s
  | .porRelease => Sys2Proof.Machine.execPorRelease s
  | .bootDevResetWrite m v => Sys2Proof.Machine.execBootDevResetWrite m v s
  | .deviceResetHoldEnd => Sys2Proof.Machine.execDeviceResetHoldEnd s
  | .bootSourceAttempt bundle => Sys2Proof.Machine.execBootSourceAttempt bundle s
  | .pushWaitTimeout => Sys2Proof.Machine.execPushWaitTimeout s
  | .bootRecGo m v => Sys2Proof.Machine.execBootRecGo m v s
  | .pldmRequestUpdate comp => Sys2Proof.Machine.execPldmRequestUpdate comp s
  | .keySlotLock => Sys2Proof.Machine.execKeySlotLock s
  | .ksSign n digest => Sys2Proof.Machine.execKsSign n digest s
  | .ksDerive src dst info => Sys2Proof.Machine.execKsDerive src dst info s
  | .ksWrap n key => Sys2Proof.Machine.execKsWrap n key s
  | .ksUnwrap n dst wrapped => Sys2Proof.Machine.execKsUnwrap n dst wrapped s
  | .ksLoad n consumer key => Sys2Proof.Machine.execKsLoad n consumer key s
  | .spdmRequest viaDoe r => Sys2Proof.Machine.execSpdmRequest viaDoe r s
  | .mctpRequest kind body => Sys2Proof.Machine.execMctpRequest kind body s
  | .bootConfigApply present => Sys2Proof.Machine.execBootConfigApply present s
  | .smbusTimeout => Sys2Proof.Machine.execSmbusTimeout s
  | .moduleBusTimeout mac => Sys2Proof.Machine.execModuleBusTimeout mac s
  | .moduleIntStorm mac => Sys2Proof.Machine.execModuleIntStorm mac s
  | .vddIoLoss => Sys2Proof.Machine.execVddIoLoss s
  | .pmuOverflow unitBase ctr => Sys2Proof.Machine.execPmuOverflow unitBase ctr s
  | .pmuSnapshot m v => Sys2Proof.Machine.execPmuSnapshot m v s
  | .pmuViewClear m v => Sys2Proof.Machine.execPmuViewClear m v s
  | .tagSelect src => Sys2Proof.Machine.execTagSelect src s
  | .trcCtlWrite m src v => Sys2Proof.Machine.execTrcCtlWrite m src v s
  | .traceRecordWrite src => Sys2Proof.Machine.execTraceRecordWrite src s
  | .coreIdleEntry core => Sys2Proof.Machine.execCoreIdleEntry core s
  | .errlogDequeue => Sys2Proof.Machine.execErrlogDequeue s
  | .dbgRelock m v => Sys2Proof.Machine.execDbgRelock m v s
  | .freezeTrigger b => Sys2Proof.Machine.execFreezeTrigger b s
  | .idcode => Sys2Proof.Machine.execIdcode s
  | .samplePreload l => Sys2Proof.Machine.execSamplePreload l s
  | .extest => Sys2Proof.Machine.execExtest s
  | .dbgAccess dr => Sys2Proof.Machine.execDbgAccess dr s
  | .frzRegion dr => Sys2Proof.Machine.execFrzRegion dr s
  | .frzCapture dr => Sys2Proof.Machine.execFrzCapture dr s
  | .bypass l => Sys2Proof.Machine.execBypass l s
  | .ringBlockLockLoss port => Sys2Proof.Machine.execRingBlockLockLoss port s
  | .epochSend num eff deadline => Sys2Proof.Machine.execEpochSend num eff deadline s
  | .vddAonPowerUp => Sys2Proof.Machine.execVddAonPowerUp s
  | .fwReadySet => Sys2Proof.Machine.execFwReadySet s
  | .squelchLift pass => Sys2Proof.Machine.execSquelchLift pass s

end Sys2Proof.Machine
end

