-- ==== Sys2Proof/Machine/Idle.lean ====
section
/-! DEFINITION. What the block does while no command waits: DEVICE_TIME counts (R168; assumption 19, DESIGN CHOICE). -/

namespace Sys2Proof.Machine

/-- DEVICE_TIME counts in this state: POR_N holds it at 0 while low and until a trip is over, it stops in FROZEN, and
nothing else affects it (R168, R446). -/
def timeRuns (s : State) : Bool := (s.power == .run || s.power == .hold) && s.grade.cur != .frozen

/-- One tick of 0.5 ns (R19, R168): a ring output whose frame has ended takes the next one that waits (R189). -/
def tick (s : State) : State := if timeRuns s then ringGo { s with deviceTime := s.deviceTime + 1 } else s

end Sys2Proof.Machine
end

