-- ==== Sys2Proof/WellFormed.lean ====
section
/-! DEFINITION. Well-formed commands: those whose operands number units, ports, lanes, functions and channels that the
variant has (R2, R10, R11); a register write may also name a unit that is absent on the FZ3200-BX, which ignores it
(R5, R11). Any other names nothing, and `exec` stops on it. -/

namespace Sys2Proof

open Sys2Proof.Machine in
/-- The device of the variant has every unit the command names. -/
def Instr.wf (vt : Variant) : Instr → Bool
  | .registerWrite _ _ _ _ => true
  | .illegalSizeAccess _ _ _ _ _ => true
  | .wideLoRead _ _ => true
  | .wideHiRead _ _ => true
  | .wideLoWrite _ _ _ => true
  | .wideHiWrite _ _ _ => true
  | .wide64bitAccess _ _ _ => true
  | .readClear _ _ => true
  | .rootFallback => true
  | .supplyDroop mon _ => 16 ≤ mon && mon < 256
  | .stretchEnd rail _ => rail < 2
  | .gradeRequestWrite _ _ => true
  | .gradeSet pf _ => pf < 8
  | .drainAcceptanceStop => true
  | .gradeTransitionComplete => true
  | .drainIdleReached => true
  | .drainTimeout => true
  | .shapeWrite _ lg _ => lg < 2
  | .portEnable _ mac _ => mac < 8
  | .portDisable _ mac _ => mac < 8
  | .laneRetune lane _ => lane < 2 * macCount vt
  | .txFfeWrite _ lane _ => lane < 16
  | .frameReceive mac _ => mac < macCount vt
  | .pauseReceive mac _ => mac < macCount vt
  | .pfcReceive mac _ _ => mac < macCount vt
  | .pauseTimerExpiry mac _ => mac < macCount vt
  | .xoffRefresh mac _ => mac < macCount vt
  | .qiPartnerWrite _ mac _ => mac < 8
  | .lldpduTransmit l => l.mac < macCount vt
  | .lpiEntry mac => mac < macCount vt
  | .lpiWake mac => mac < macCount vt
  | .linkDown mac => mac < macCount vt
  | .linkUp p => p.mac < macCount vt
  | .linkReturn mac => mac < macCount vt
  | .holdExpiry mac => mac < macCount vt
  | .inletAdmission mac => mac < macCount vt
  | .thresholdRecompute => true
  | .hbxCfgWrite _ a _ => unitOf a == 0x308
  | .egressCfgWrite _ a _ => isEgressCfg a
  | .passStart pipe _ => pipe < 10
  | .frameRetire pipe _ => pipe < 10
  | .sampleDeliver => true
  | .pipeGraphSelWrite _ pipe _ => pipe < 10
  | .pipeInletClassWrite _ pipe c _ => pipe < 10 && c < 8
  | .pipeJoin pf _ => pf < 8
  | .pipeSplit pf _ => pf < 8
  | .reorderEpoch _ pair => pair < 4
  | .pipeFailure pipe _ => pipe < 10
  | .pipeBist pf _ => pf < 8
  | .pipeBistDone pipe _ => pipe < 10
  | .pipeRestore pf _ => pf < 8
  | .egressAdmission mac => mac < macCount vt
  | .dklClassCfgWrite _ mac cls _ => mac < 8 && cls < 8
  | .dklPortCfgWrite _ mac _ => mac < 8
  | .dklListWrite pf _ => pf < 8
  | .dklListCommit pf _ => pf < 8
  | .dklListRead pf _ => pf < 8
  | .listSwap mac => mac < macCount vt
  | .cycleStart mac => mac < macCount vt
  | .gateEntryStart mac _ => mac < macCount vt
  | .holdStart mac => mac < macCount vt
  | .frameTxStart mac => mac < macCount vt
  | .fragmentResume mac => mac < macCount vt
  | .frameTxEnd mac _ => mac < macCount vt
  | .tsqDeferredWrite _ => true
  | .windowClose mac cls => mac < macCount vt && cls < 8
  | .verifyTimeout mac => mac < macCount vt
  | .verifyMpacketReceive mac => mac < macCount vt
  | .respondMpacketReceive mac => mac < macCount vt
  | .frerResetTimeout h => h < 32768
  | .frerStreamSet pf _ => pf < 8
  | .frerStreamClear pf _ => pf < 8
  | .frerStats pf _ => pf < 8
  | .trigSet pf _ => pf < 8
  | .trigClear pf _ => pf < 8
  | .triggerTimeFire t => t < 4096
  | .triggerEdgeFire t => t < 4096
  | .wakeAhead mac => mac < macCount vt
  | .windowPublish mac cls _ => mac < macCount vt && cls < 8
  | .phcRate pf _ => pf < 8
  | .phcRateRegisterCommit _ n _ => n < 4
  | .phcStep pf _ => pf < 8
  | .phcStepGo _ n _ => n < 4
  | .phcLock pf _ => pf < 8
  | .phcLockedWrite _ n _ => n < 4
  | .phcSnapshot _ n _ => n < 4
  | .phcRead pf _ => pf < 8
  | .ppsInEdge i _ _ => i < 2
  | .ppsInLoss i => i < 2
  | .ppsOutPulseStart i => i < 2
  | .ppsOutPulseEnd i => i < 2
  | .ringFrameReceive port _ => port < 2
  | .delayMeasure port _ => port < 2
  | .syncSend _ => true
  | .broadcastReturnTimeout port => port < 2
  | .ringInsertOpen => true
  | .ringInsertSend => true
  | .ringInsertTimeout port => port < 2
  | .ringInsertRetry => true
  | .ringInputLos port => port < 2
  | .crgCfgWrite _ _ => true
  | .crgMsgSend pf _ => pf < 8
  | .wovConnCreate pf _ => pf < 8
  | .wovConnClose pf _ => pf < 8
  | .connDrainEnd n => n < 2 ^ 20
  | .wovConnRekey pf _ => pf < 8
  | .wovConnQuery pf _ => pf < 8
  | .wovWinOpen pf _ => pf < 8
  | .wovWinRevoke pf _ => pf < 8
  | .woveContextLoaded n _ => n < 2 ^ 20
  | .wovePacketSend n _ => n < 2 ^ 20
  | .wovePacketReceive mac _ => mac < macCount vt
  | .ackCoalTimeout n => n < 2 ^ 20
  | .pathSuspectEnd n _ => n < 2 ^ 20
  | .retransmitTimeout n => n < 2 ^ 20
  | .rnrRetry n _ => n < 2 ^ 20
  | .rateUpdate n => n < 2 ^ 20
  | .cphSaWrite pf _ => pf < 8
  | .cphSaClear pf _ => pf < 8
  | .cphSaQuery pf _ => pf < 8
  | .saFetchDone n _ _ => n < 2 ^ 22
  | .saWriteback n => n < 2 ^ 22
  | .cphPortCfgWrite _ mac _ => mac < 8
  | .inlineCipherFrame lane => lane < 9
  | .lookasideJobAssign _ => true
  | .lookasideJobDone _ _ _ => true
  | .transformJobDone _ _ _ => true
  | .cphLaneJoin pf _ => pf < 8
  | .cphLaneSplit pf _ => pf < 8
  | .katRun lane _ => lane < 9
  | .laneFailure lane _ => lane < 9
  | .cphLaneBist pf _ => pf < 8
  | .laneBistDone lane _ => lane < 9
  | .cphLaneRestore pf _ => pf < 8
  | .cphPageSaSelWrite fid _ _ => fid < 4096
  | .hostLinkUp k _ _ _ => k < 2
  | .aspmL1Request k _ => k < 2
  | .l0pNarrow k => k < 2
  | .l0pWiden k => k < 2
  | .linkWakeLead k => k < 2
  | .d3hotEntry fid => fid < 4096
  | .d0Return fid => fid < 4096
  | .perstAssert => true
  | .perstDeassert => true
  | .hotReset k => k < 2
  | .configReady k => k < 2
  | .flrInitiate fid => fid < 4096
  | .flrComplete fid => fid < 4096
  | .bmeClear fid => fid < 4096
  | .bmeSet fid => fid < 4096
  | .vfRemove fid => fid < 4096
  | .hostCompletionReceive k fid _ _ => k < 2 && fid < 4096
  | .quarantineExpiry fid _ => fid < 4096
  | .completionTimeout fid _ => fid < 4096
  | .hostLost k => k < 2
  | .hostReturn k => k < 2
  | .atsInvalidation fid _ _ _ => fid < 4096
  | .atsInvalidationComplete fid => fid < 4096
  | .pageResponseReceive fid _ _ => fid < 4096
  | .priTimeout fid _ => fid < 4096
  | .vfMbxSend fid => fid < 4096
  | .vfMbxAck fid => fid < 4096
  | .pfMbxAckReq pf => pf < 8
  | .pfMbxSendReply pf => pf < 8
  | .fnQuotaSet pf _ => pf < 8
  | .fnQuotaQuery pf _ => pf < 8
  | .fnResAssign pf _ => pf < 8
  | .fnResRelease pf _ => pf < 8
  | .fnDirtyStart pf _ => pf < 8
  | .fnDirtySwap pf _ => pf < 8
  | .fnDirtyStop pf _ => pf < 8
  | .dirtyWordWrite fid _ => fid < 4096
  | .dirtyWriteFail fid => fid < 4096
  | .sealedReplyRelease pf => pf < 8
  | .queueDoorbell fid idx _ => fid < 4096 && idx < 1024
  | .descriptorFetch _ _ => true
  | .heldCompletionWrite _ => true
  | .shadowWrite _ _ => true
  | .cqDoorbell fid idx _ => fid < 4096 && idx < 1024
  | .moderationTimeout _ => true
  | .fwMsgExecute _ => true
  | .qCreate pf _ => pf < 8
  | .qStop pf _ => pf < 8
  | .queueStopDone _ => true
  | .qResume pf _ => pf < 8
  | .qDestroy pf _ => pf < 8
  | .cqCreate pf _ => pf < 8
  | .cqModerate pf _ => pf < 8
  | .cqDestroy pf _ => pf < 8
  | .cmdSubmit pf _ => pf < 8
  | .cmdAbort pf _ => pf < 8
  | .abortDone pf => pf < 8
  | .commandReplyRelease pf => pf < 8
  | .nop pf _ => pf < 8
  | .devInfo pf _ => pf < 8
  | .devReset pf _ => pf < 8
  | .smbEnable pf _ => pf < 8
  | .graphWrite pf _ => pf < 8
  | .graphStageWrite pf _ => pf < 8
  | .graphCommit pf _ => pf < 8
  | .progWrite pf _ => pf < 8
  | .templateWrite pf _ => pf < 8
  | .emInsert pf _ => pf < 8
  | .emDelete pf _ => pf < 8
  | .tcamWrite pf _ => pf < 8
  | .tcamClear pf _ => pf < 8
  | .lpmAdd pf _ => pf < 8
  | .lpmDelete pf _ => pf < 8
  | .meterSet pf _ => pf < 8
  | .mirrorSet pf _ => pf < 8
  | .rssKeySet pf _ => pf < 8
  | .rssIndirSet pf _ => pf < 8
  | .counterRead pf _ => pf < 8
  | .coreImageLoad pf _ => pf < 8
  | .quireStart pf _ _ => pf < 8
  | .quireStop pf _ => pf < 8
  | .quireQuery pf _ => pf < 8
  | .marchRun pf _ => pf < 8
  | .marchRunDone _ => true
  | .marchStatus pf _ => pf < 8
  | .hbmCfg pf _ => pf < 8
  | .hbmRowRepair pf _ => pf < 8
  | .hbmQuery pf _ => pf < 8
  | .dryCapSet pf _ => pf < 8
  | .dryDomainSet pf _ => pf < 8
  | .dryQuery pf _ => pf < 8
  | .pmuCfg pf _ => pf < 8
  | .trcCfg pf _ => pf < 8
  | .errlogRead pf _ => pf < 8
  | .freezeArm pf _ => pf < 8
  | .freezeDisarm pf _ => pf < 8
  | .dbgUnlock pf _ => pf < 8
  | .fwWrite pf _ => pf < 8
  | .fwActivate pf _ => pf < 8
  | .attestGet pf _ => pf < 8
  | .minverSet pf _ => pf < 8
  | .fwQuery pf _ => pf < 8
  | .chRecv h r a => r < 32 && a < 32 && h < 64 * quireCount vt
  | .chTryrecv h r a => r < 32 && a < 32 && h < 64 * quireCount vt
  | .chSend h a b => a < 32 && b < 32 && h < 64 * quireCount vt
  | .chSendl h a b => a < 32 && b < 32 && h < 64 * quireCount vt
  | .chAck h => h < 64 * quireCount vt
  | .chWait h r a => r < 32 && a < 32 && h < 64 * quireCount vt
  | .chReplay h a b => a < 32 && b < 32 && h < 64 * quireCount vt
  | .channelItemDeliver c p => c < 8 * quireCount vt && p < 64
  | .threadWake h => h < 64 * quireCount vt
  | .timerCmpMatch core => core < 8 * quireCount vt
  | .threadCtxAccess h r _ => r < 32 && h < 64 * quireCount vt
  | .threadGo h _ => h < 64 * quireCount vt
  | .threadFault h _ _ => h < 64 * quireCount vt
  | .coreFailure core cause => core < 8 * quireCount vt && 1 ≤ cause && cause ≤ 4
  | .lockstepMismatch _ _ => true
  | .firmwareRestartDone => true
  | .spmBankOwnerWrite _ n _ => n < 256
  | .handoverComplete n => n < 256
  | .spmBankCouserWrite _ n _ => n < 256
  | .spmScrub n w _ => n < 256 && w < 16384
  | .hbmPatrolScrub k _ _ _ => k < hbmCount vt
  | .hbmRefresh k _ => k < hbmCount vt
  | .domainCloseStart d => d < 29
  | .domainDrainLimit d => d < 29
  | .domainClosed d => d < 29
  | .domainOpenDone d _ => d < 29
  | .accountingStep _ _ => true
  | .estimateCorrection _ _ _ => true
  | .capCheck => true
  | .capStepUndo => true
  | .coreClkRaise q _ => q < quireCount vt
  | .rampStart mac _ => mac < macCount vt
  | .rampEnd mac => mac < macCount vt
  | .thermalForecast sensor _ _ => sensor < 64
  | .thermalCapStep => true
  | .thermalEmergency sensor _ => sensor < 64
  | .thermalEmergencyEnd => true
  | .thermalTrip sensor => sensor < 64
  | .avsLoop rail _ _ => rail < 2
  | .marginExhausted rail => rail < 2
  | .avsFault rail => rail < 2
  | .porAssert => true
  | .porRelease => true
  | .bootDevResetWrite _ _ => true
  | .deviceResetHoldEnd => true
  | .bootSourceAttempt _ => true
  | .pushWaitTimeout => true
  | .bootRecGo _ _ => true
  | .pldmRequestUpdate _ => true
  | .keySlotLock => true
  | .ksSign _ _ => true
  | .ksDerive _ _ _ => true
  | .ksWrap _ _ => true
  | .ksUnwrap _ _ _ => true
  | .ksLoad _ _ _ => true
  | .spdmRequest _ _ => true
  | .mctpRequest _ _ => true
  | .bootConfigApply _ => true
  | .smbusTimeout => true
  | .moduleBusTimeout mac => mac < macCount vt
  | .moduleIntStorm mac => mac < macCount vt
  | .vddIoLoss => true
  | .pmuOverflow unitBase ctr => unitHasPmu vt (unitOf unitBase) && offsetOf unitBase == 0 && ctr < 8
  | .pmuSnapshot _ _ => true
  | .pmuViewClear _ _ => true
  | .tagSelect src => src < 74
  | .trcCtlWrite _ src _ => src < 74
  | .traceRecordWrite src => src < 74
  | .coreIdleEntry core => core < 8 * quireCount vt
  | .errlogDequeue => true
  | .dbgRelock _ _ => true
  | .freezeTrigger _ => true
  | .idcode => true
  | .samplePreload _ => true
  | .extest => true
  | .dbgAccess _ => true
  | .frzRegion _ => true
  | .frzCapture _ => true
  | .bypass _ => true
  | .ringBlockLockLoss port => port < 2
  | .epochSend _ _ _ => true
  | .vddAonPowerUp => true
  | .fwReadySet => true
  | .squelchLift _ => true

end Sys2Proof
end

