-- ==== Sys2Proof/Safety.lean ====
section
/-! DEFINITION. The terms the statements use: a command that answers a state with a property, the invariants, the accesses
that reach a register, and a Joryen command whose checks 1 to 4 of R365 pass. -/

namespace Sys2Proof

open Machine

/-- The command answers a next state, and that state has the property. -/
def Answers (c : Instr) (s : State) (P : State → Prop) : Prop := ∃ t, exec c s = .next t ∧ P t

/-! ## Invariants -/

/-- Both memories are in canonical form: addresses strictly rising, no listed byte equal to what an unlisted one reads
as. -/
def MemoryCanonical (s : State) : Prop := s.mem.wf = true

/-- While POR_N is low, DEVICE_TIME is 0 and the grade is PROVISION, no transition under way (R168, R446). -/
def HeldAtReset (s : State) : Prop :=
  s.power = .porLow → s.deviceTime = 0 ∧ s.grade.cur = .provision ∧ s.grade.target = none

/-! ## Register accesses -/

/-- A read of BAR 0 by the master reaches the register: PF 0 or a unit or the unlocked JTAG port, or a thread of a data core
that runs, in the compute section (R274, R276, R376, R506). -/
def ReadReaches (s : State) (m : Master) (a : Nat) : Prop :=
  match m with
  | .core h => hartRuns s h = true ∧ unitOf a / 256 = 7
  | _ => reachesBar0 s m = true

/-- An access of the master to a space other than a configuration space reaches it (R274 to R276). -/
def Reaches (s : State) (m : Master) : Space → Prop
  | .bar0 => reachesBar0 s m = true
  | .page fid => m = .fn fid ∧ pageReach s fid = true
  | .msix fid => m = .fn fid ∧ pageReach s fid = true
  | .cfg _ => False

/-- No register changes but those at the addresses of the list. -/
def RegsElsewhere (s t : State) (l : List Nat) : Prop := ∀ a, a ∉ l → rd t a = rd s a

/-! ## Outputs, hardware events and grades -/

/-- The device sent something outside, before whatever else it sent in the step. -/
def Emits (s t : State) (o : Out) : Prop := ∃ l, t.out = l ++ o :: s.out

/-- A ring output is idle and nothing waits on the ring, so that a frame starts at once (R189). -/
def RingIdle (s : State) (port : Nat) : Prop :=
  (ring s).waiting = [] ∧ tgetD (ring s).busy port 0 ≤ s.deviceTime.toNat

/-- A frame, given without its CRC, leaves by a ring output where that is idle, and waits behind a frame in transmission. -/
def RingSends (s t : State) (port : Nat) (own : Bool) (b : List Byte) : Prop :=
  (RingIdle s port → t.out = .ring port (b ++ toLe 4 (crc32c b)) :: s.out) ∧
  (s.deviceTime.toNat < tgetD (ring s).busy port 0 →
    t.out = s.out ∧ (ring t).waiting = (ring s).waiting ++ [{ port := port, own := own, bytes := b }])

/-- The 48-bit counter at `a` counts `n` more (R21, R24). -/
def Counted (s t : State) (a n : Nat) : Prop := rd64 t a = (rd64 s a + n) % 2 ^ 48

/-- A 32-byte reply was written to a host address (R354). -/
def hostReplied (t : State) (fid : Nat) (pasid : Option Nat) (addr : Nat) : Bool :=
  t.out.any fun o => match o with
    | .hostWrite f x a b => f == fid && x == pasid && a == addr && b.length == 32
    | _ => false

/-- Hardware set bit `b` of the W1C register at `a`, and field [hi:lo] of its companion counts one more (R25). -/
def HardwareSet (s t : State) (a b hi lo : Nat) : Prop :=
  flag t a b = true ∧ fld t (a + 4) hi lo = (fld s (a + 4) hi lo + 1) % 2 ^ (hi + 1 - lo)

/-- The table of R31, "=" apart: whether a change between two grades is accepted, given whether the freeze is armed. -/
def GradeTable (cur to' : Grade) (armed : Bool) : Bool :=
  match cur, to' with
  | .frozen, _ => false
  | _, .frozen => armed
  | .provision, .drain => false
  | .provision, _ => true
  | .drain, _ => true
  | .standby, .drain => false
  | .standby, _ => true
  | _, .provision => false
  | _, .standby => false
  | _, _ => true

/-- The conditions of R32 on a target grade. -/
def GradeConditions (s : State) (g : Grade) : Prop :=
  (g = .sealed → laneState s 8 = 2) ∧
  (g = .capped → 120 ≤ capSetting s ∧ capSetting s ≤ (match s.variant with | .ax => 300 | .bx => 190)) ∧
  (g = .deterministic → 150 ≤ capSetting s) ∧
  (s.grade.cur = .provision → g ≠ .standby → g ≠ .frozen → s.grade.cfgCommitted = true)


/-- The frame's destination is a core endpoint, which may make it wait (R382). -/
def steersToCore (v : Verdict) : Bool := match v.steer with | some (.core _ _ _) => true | _ => false


/-- The NAK code a packet's window check draws, if any (R209). -/
def windowRefusal (s : State) (n : Nat) (c : Conn) (key off len right : Nat) : Option Nat :=
  match windowCheck s n c key off len right with
  | .error k => some k
  | .ok _ => none

/-! ## Joryen commands -/

/-- PF `pf`'s channel holds an accepted command of the opcode with parameters `p`, as read into `buf`; its header is valid,
the issuer may name its target (R301), and the opcode is accepted in the grade in force (R365 steps 1 to 4, but for the
objects the parameters name). -/
def Admitted (s : State) (pf code : Nat) (buf : ParamBuf) (p : List Byte) : Prop :=
  pf < 8 ∧ clocked s = true ∧
  ∃ cmd row, (chanOf s pf).cmd = some cmd ∧ cmd.phase = .accepted ∧ hdrOpcode cmd.hdr = code ∧
    hdrBad false cmd.hdr = none ∧ hdrParamLen cmd.hdr = p.length ∧ (p = [] ∨ buf = some p) ∧
    opRow code = some row ∧ gradeAllows row.grades s.grade.cur = true ∧
    (match row.scope with
     | .everyPf => True
     | .deviceWide => pf = 0
     | .function => mayName s pf (hdrTarget cmd.hdr) = true)

/-- The target FID of the command in a channel. -/
def targetOf (s : State) (pf : Nat) : Nat := ((chanOf s pf).cmd.map fun c => hdrTarget c.hdr).getD 0

/-- The reply of a channel's command is settled. -/
def Settled (t : State) (pf : Nat) (r : Reply) : Prop :=
  ∃ cmd, (chanOf t pf).cmd = some cmd ∧ cmd.phase = .settled r

/-- The reply is settled with a status. -/
def SettledWith (t : State) (pf st : Nat) : Prop := ∃ r, Settled t pf r ∧ r.status = st

/-- The command of a channel waits for the event that ends it. -/
def Working (t : State) (pf : Nat) : Prop := ∃ cmd, (chanOf t pf).cmd = some cmd ∧ cmd.phase = .working

end Sys2Proof
end

