-- ==== Sys2Proof/Certificates/Slice0/Obligations.lean ====
section
/-! DEFINITION. The statements about the block: the step and its queue, what holds of every command, and family by family
what each command does. -/

open Sys2Proof Sys2Proof.Machine

/-! ## The step -/

/-- A step runs the command at the front of the queue on the state with the rest of the queue (the block's form of a step;
the queue is the model's own). -/
def Obligations.StepRunsFrontCommand : Prop :=
  ∀ (c : Instr) (rest : List Instr) (s : State),
    step { s with pending := c :: rest } = exec c { s with pending := rest }

/-- While no command waits, a step is one tick of DEVICE_TIME (R19, R168), which stands while POR_N is low, after a thermal
trip and in FROZEN; an open ring output whose frame has ended takes its next one (R189), or counts the EPOCH it may no longer
send (R193). That the empty queue stands for time passing is the model's choice (assumption 19, DESIGN CHOICE). -/
def Obligations.EmptyQueueTicks : Prop :=
  ∀ s : State, s.pending = [] → ∃ t, step s = .next t ∧
    t.deviceTime = (if (s.power = .run ∨ s.power = .hold) ∧ s.grade.cur ≠ .frozen then s.deviceTime + 1
      else s.deviceTime) ∧
    (ringOpen s = false ∨ (ring s).waiting = [] → t = { s with deviceTime := t.deviceTime }) ∧
    { t with deviceTime := s.deviceTime, regs := s.regs, out := s.out, time := s.time } = s ∧
    RegsElsewhere s t [Reg.CRG_EPOCH_LATE, Reg.CRG_EPOCH_LATE + 4]

/-- Every command whose operands name what the variant has answers a next state, in every state, and any other stops: no
other fault and no refusal exists. -/
def Obligations.StopsExactlyOnIllFormed : Prop :=
  ∀ (c : Instr) (s : State),
    (c.wf s.variant = true → ∃ t, exec c s = .next t) ∧
    (c.wf s.variant = false → exec c s = .fault .noSuchUnit)

/-- No command touches the queue or the fused variant. -/
def Obligations.QueueAndVariantKept : Prop :=
  ∀ (c : Instr) (s t : State), exec c s = .next t → t.pending = s.pending ∧ t.variant = s.variant

/-- Both memories stay in canonical form at every step, from every state. -/
def Obligations.MemoryStaysCanonical : Prop :=
  ∀ s t : State, MemoryCanonical s → step s = .next t → MemoryCanonical t

/-- After reset both memories are canonical, DEVICE_TIME is 0, the grade is PROVISION and no command waits (R446). -/
def Obligations.ResetHoldsInvariants : Prop :=
  MemoryCanonical State.reset ∧ HeldAtReset State.reset ∧ State.reset.pending = [] ∧ State.reset.power = .porLow ∧
  ∀ a, rd State.reset a = regReset .ax a

/-- While POR_N is low, DEVICE_TIME stays 0 and the grade PROVISION, at every step (R168, R446). -/
def Obligations.PorHoldsTimeAndGrade : Prop :=
  ∀ s t : State, HeldAtReset s → step s = .next t → HeldAtReset t

/-- Only POR_N takes the device out of FROZEN (R37): no other command changes the grade there. -/
def Obligations.FrozenLeftOnlyByPor : Prop :=
  ∀ (c : Instr) (s t : State), s.power = .run → s.grade.cur = .frozen → exec c s = .next t → t.grade.cur ≠ .frozen →
    c = .porAssert

/-- DEVICE_TIME is changed by no command but those of POR_N and the thermal trip that acts as POR_N, and by those only to 0
(R168, R440): no other reset, no grade change, no fallback and no clock stretch touches it. -/
def Obligations.DeviceTimeOnlyPor : Prop :=
  ∀ (c : Instr) (s t : State), exec c s = .next t → t.deviceTime ≠ s.deviceTime →
    t.deviceTime = 0 ∧ (c = .porAssert ∨ c = .porRelease ∨ ∃ n, c = .thermalTrip n)

/-- Without the root-derived clocks (POR_N low, a device reset held, after a trip, or FROZEN) no command has an effect but
those of the pins of the resets, of the JTAG port and of the supplies that run without them. -/
def Obligations.UnclockedCommandsDoNothing : Prop :=
  ∀ (c : Instr) (s t : State), clocked s = false → exec c s = .next t → t ≠ s →
    match c with
    | .porAssert | .porRelease | .deviceResetHoldEnd | .vddAonPowerUp | .perstAssert | .perstDeassert
    | .idcode | .samplePreload _ | .extest | .bypass _ | .frzRegion _ | .frzCapture _ | .vddIoLoss => True
    | _ => False

/-- The bytes of the SPM and the HBM are changed by no command but a handover, a march run, an image load, the records a
trace source writes (also as a quire stops, is disposed of or goes idle), and what resets the device (R407, R411, R393, R497,
R501, R446). -/
def Obligations.MemoryChangedOnlyBy : Prop :=
  ∀ (c : Instr) (s t : State), exec c s = .next t → t.mem ≠ s.mem →
    match c with
    | .handoverComplete _ | .marchRunDone _ | .coreImageLoad _ _ | .fwMsgExecute _ | .bootConfigApply _
    | .traceRecordWrite _ | .coreIdleEntry _ | .quireStop _ _ | .domainDrainLimit _ | .domainClosed _ => True
    | .porAssert | .thermalTrip _ | .bootDevResetWrite _ _ | .commandReplyRelease _
    | .sealedReplyRelease _ | .abortDone _ | .registerWrite _ _ _ _ | .wideLoWrite _ _ _ | .wideHiWrite _ _ _ | .wide64bitAccess _ _ _ | .dbgAccess _ =>
      t.power ≠ .run ∧ t.mem = {}
    | _ => False


/-! ## Register access -/

/-- ILLEGAL_SIZE_ACCESS: an access of a size or alignment that R20 does not accept is recorded in the error log's queue with
code 0x0001; a read returns 0 bytes, a write is ignored, and nothing else changes. -/
def Obligations.IllegalSizeAccessRecorded : Prop :=
  ∀ (s : State) (m : Master) (sp : Space) (a size : Nat) (isWrite : Bool), clocked s = true → Reaches s m sp →
    ¬(size = 4 ∧ a % 4 = 0) → ¬(size = 8 ∧ a % 8 = 0) → s.obs.errQ.length < 16 →
    Answers (.illegalSizeAccess m sp a size isWrite) s fun t =>
      (∃ e, t.obs.errQ = s.obs.errQ ++ [e] ∧ e.code = 0x0001 ∧ e.time = s.deviceTime) ∧
      t.out = (if isWrite then s.out else .busData m a (List.replicate size 0) :: s.out) ∧
      { t with obs := s.obs, out := s.out } = s

/-- WIDE_LO_READ, WIDE_HI_READ, READ_CLEAR: a read of a _LO word returns the low word and copies the high word into the
master's read latch, which holds 0 after reset; a read of a _HI word returns that latch (R21); a read of a one-word register returns it and clears its
read-to-clear bits. Nothing else changes. The JTAG port reads zero in the security section (R506). The wide registers of a
function page are read the same way by their function, and every other word of a page and of an MSI-X table is read without
any effect (R275, R276). -/
def Obligations.RegisterReads : Prop :=
  ∀ (s : State) (m : Master) (a : Nat), clocked s = true → a % 4 = 0 →
    (ReadReaches s m a →
      (∀ r, rowOf s.variant a = some (r, 0) → r.kind ≠ .plain →
        Answers (.wideLoRead m ⟨.bar0, a⟩) s fun t =>
          t.out = .busData m a (toLe 4 (masterView s m a).toNat) :: s.out ∧
          readLatchOf t m = masterView s m (a + 4) ∧
          (∀ n, n ≠ m → readLatchOf t n = readLatchOf s n) ∧
          { t with out := s.out, readLatch := s.readLatch } = s) ∧
      (∀ r, rowOf s.variant a = some (r, 1) → r.kind ≠ .plain →
        Answers (.wideHiRead m ⟨.bar0, a⟩) s fun t =>
          t.out = .busData m a (toLe 4 (readLatchOf s m).toNat) :: s.out ∧ { t with out := s.out } = s) ∧
      (∀ r, rowOf s.variant a = some (r, 0) → r.kind = .plain →
        Answers (.readClear m ⟨.bar0, a⟩) s fun t =>
          t.out = .busData m a (toLe 4 (masterView s m a).toNat) :: s.out ∧
          rd t a = rd s a &&& ~~~(BitVec.ofNat 32 r.rc) ∧ RegsElsewhere s t [a] ∧
          { t with out := s.out, regs := s.regs } = s)) ∧
    (∀ fid, m = .fn fid → pageReach s fid = true →
      (pageWide a = some 0 → Answers (.wideLoRead m ⟨.page fid, a⟩) s fun t =>
        t.out = .busData m a (toLe 4 (pageView s fid a).toNat) :: s.out ∧
        readLatchOf t m = pageView s fid (a + 4) ∧
        (∀ n, n ≠ m → readLatchOf t n = readLatchOf s n) ∧
        { t with out := s.out, readLatch := s.readLatch } = s) ∧
      (pageWide a = some 1 → Answers (.wideHiRead m ⟨.page fid, a⟩) s fun t =>
        t.out = .busData m a (toLe 4 (readLatchOf s m).toNat) :: s.out ∧ { t with out := s.out } = s) ∧
      (pageWide a = none → Answers (.readClear m ⟨.page fid, a⟩) s fun t =>
        t.out = .busData m a (toLe 4 (pageView s fid a).toNat) :: s.out ∧ { t with out := s.out } = s) ∧
      Answers (.readClear m ⟨.msix fid, a⟩) s fun t =>
        t.out = .busData m a (toLe 4 (msixView s fid a).toNat) :: s.out ∧ { t with out := s.out } = s) ∧
    readLatchOf State.reset m = 0

/-- WIDE_LO_WRITE, WIDE_HI_WRITE, WIDE_64BIT_ACCESS on a wide register: a _LO word is held with its register and replaces the
master's held word; a _HI word commits the held low word of this register with it, and alone where none of this register is
held, and the latch is empty; an aligned 64-bit access reads or writes both words at once and leaves the latches. A rate
register commits as a rate (R172), and a closed recovery window takes nothing (R452). -/
def Obligations.WideRegisterWrites : Prop :=
  ∀ (s : State) (m : Master) (lo : Nat) (r : RegRow), clocked s = true → reachesBar0 s m = true →
    lo % 4 = 0 → rowOf s.variant lo = some (r, 0) → rowOf s.variant (lo + 4) = some (r, 1) → r.kind ≠ .plain →
    (∀ v : Word, Answers (.wideLoWrite m lo v) s fun t =>
      latchOf t m lo = some v ∧ (∀ b, b ≠ lo → latchOf t m b = none) ∧
      (∀ n b, n ≠ m → latchOf t n b = latchOf s n b) ∧ { t with writeLatch := s.writeLatch } = s) ∧
    (unitOf lo = 0xB10 → recActive s = false → ∀ v : Word, Answers (.wideHiWrite m (lo + 4) v) s fun t =>
      (∀ b, latchOf t m b = none) ∧ (∀ n b, n ≠ m → latchOf t n b = latchOf s n b) ∧
      { t with writeLatch := s.writeLatch } = s) ∧
    (0x420 ≤ unitOf lo ∧ unitOf lo < 0x424 ∧ offsetOf lo = 0x10 → ∀ v : Word, Answers (.wideHiWrite m (lo + 4) v) s fun t =>
      (∀ b, latchOf t m b = none) ∧
      { t with writeLatch := s.writeLatch } = { writeRate s (unitOf lo % 16)
        (v.toNat * 2 ^ 32 + ((latchOf s m lo).getD (rd s lo)).toNat) with writeLatch := s.writeLatch }) ∧
    ((unitOf lo = 0xB10 → recActive s = true) → ¬(0x420 ≤ unitOf lo ∧ unitOf lo < 0x424 ∧ offsetOf lo = 0x10) →
      (∀ v : Word, Answers (.wideHiWrite m (lo + 4) v) s fun t =>
        rd t (lo + 4) = writtenWord r 1 (rd s (lo + 4)) v ∧
        rd t lo = writtenWord r 0 (rd s lo) ((latchOf s m lo).getD (rd s lo)) ∧
        (∀ b, latchOf t m b = none) ∧ (∀ n b, n ≠ m → latchOf t n b = latchOf s n b) ∧
        RegsElsewhere s t [lo, lo + 4] ∧ { t with writeLatch := s.writeLatch, regs := s.regs } = s) ∧
      (lo % 8 = 0 → ∀ v : DWord, Answers (.wide64bitAccess m ⟨.bar0, lo⟩ (some v)) s fun t =>
        rd t (lo + 4) = writtenWord r 1 (rd s (lo + 4)) ((v >>> 32).setWidth 32) ∧
        rd t lo = writtenWord r 0 (rd s lo) (v.setWidth 32) ∧
        RegsElsewhere s t [lo, lo + 4] ∧ { t with regs := s.regs } = s)) ∧
    (lo % 8 = 0 → Answers (.wide64bitAccess m ⟨.bar0, lo⟩ none) s fun t =>
      t.out = .busData m lo (toLe 8 (masterView s m (lo + 4) ++ masterView s m lo).toNat) :: s.out ∧
      { t with out := s.out } = s)

/-- REGISTER_WRITE: an aligned 32-bit write of a one-word register of the host, queue, wove and compute sections, whose
registers have no effect of their own, takes the RW bits from the word, clears the W1C bits it writes 1 to, keeps a field
written outside its range, and leaves every other bit, register and part of the state; WOV_CFG's UDP_PORT stays while EN is 1
(R205). A write to an offset where no register is has no effect. -/
def Obligations.RegisterWriteStores : Prop :=
  ∀ (s : State) (m : Master) (a : Nat) (v : Word), clocked s = true → reachesBar0 s m = true → a % 4 = 0 →
    unitOf a / 256 ∈ [1, 2, 5, 7] →
    (∀ r, rowOf s.variant a = some (r, 0) → r.kind = .plain →
      Answers (.registerWrite m .bar0 a v) s fun t =>
        (a = Reg.WOV_CFG → flag s a 0 = true →
          rd t a = writtenWord r 0 (rd s a) (putBits v 31 16 (fld s a 31 16))) ∧
        ((a = Reg.WOV_CFG → flag s a 0 = false) → rd t a = writtenWord r 0 (rd s a) v) ∧
        RegsElsewhere s t [a] ∧ { t with regs := s.regs } = s) ∧
    (rowOf s.variant a = none → Answers (.registerWrite m .bar0 a v) s fun t => t = s)

/-- What a written word becomes, bit by bit, in a register without range checks: a bit that is RW takes the new value, a bit
that is W1C is cleared where 1 is written, every other bit stays (R6). -/
def Obligations.AccessTypesBitwise : Prop :=
  ∀ (r : RegRow) (w : Nat) (old v : Word) (k : Nat), k < 32 → r.checks = [] →
    (writtenWord r w old v).getLsbD k =
      (if (BitVec.ofNat 32 (if w = 0 then r.rwLo else r.rwHi)).getLsbD k then v.getLsbD k else old.getLsbD k) &&
        !(w == 0 && (BitVec.ofNat 32 r.w1c).getLsbD k && v.getLsbD k)


/-! ## Clocks and grades -/

/-- GRADE_REQUEST_WRITE (R30 to R32): with no transition under way, the grade in force is answered with DONE and OK; a grade
that the table and its condition accept becomes the target, the grade in force staying until the transition's own event; one
the table refuses sets REFUSED with WRONG_GRADE (7). While a transition runs a request sets REFUSED with BUSY_REJECTED (1) and
does nothing else. -/
def Obligations.GradeRequestAnswers : Prop :=
  ∀ (s : State) (m : Master) (v : Word), clocked s = true → reachesBar0 s m = true →
    ∀ g, g = gradeOf (bits v 2 0) →
    (s.grade.target ≠ none → Answers (.gradeRequestWrite m v) s fun t =>
      HardwareSet s t Reg.GLB_GRADE_STATUS 2 15 8 ∧ fld t Reg.GLB_GRADE_STATUS 31 16 = 1 ∧
      RegsElsewhere s t [Reg.GLB_GRADE_STATUS, Reg.GLB_GRADE_STATUS_OCC] ∧ { t with regs := s.regs } = s) ∧
    (s.grade.target = none → s.grade.cur = g → Answers (.gradeRequestWrite m v) s fun t =>
      HardwareSet s t Reg.GLB_GRADE_STATUS 1 7 0 ∧ fld t Reg.GLB_GRADE_STATUS 31 16 = 0 ∧
      RegsElsewhere s t [Reg.GLB_GRADE_STATUS, Reg.GLB_GRADE_STATUS_OCC] ∧ { t with regs := s.regs } = s) ∧
    (s.grade.target = none → s.grade.cur ≠ g → GradeTable s.grade.cur g s.obs.armed = true → GradeConditions s g →
      Answers (.gradeRequestWrite m v) s fun t => t.grade.target = some g ∧ t.grade.cur = s.grade.cur ∧ t.grade.byPf = none) ∧
    (s.grade.target = none → s.grade.cur ≠ g → GradeTable s.grade.cur g s.obs.armed = false →
      Answers (.gradeRequestWrite m v) s fun t =>
        HardwareSet s t Reg.GLB_GRADE_STATUS 2 15 8 ∧ fld t Reg.GLB_GRADE_STATUS 31 16 = 7 ∧
        RegsElsewhere s t [Reg.GLB_GRADE_STATUS, Reg.GLB_GRADE_STATUS_OCC] ∧ { t with regs := s.regs } = s)

/-- GRADE_SET (R30 to R32): the same path by command. A target the table and its condition accept starts the transition and
the command waits for it; the grade in force is answered OK; one the table refuses is answered WRONG_GRADE; during a
transition the answer is BUSY_REJECTED. -/
def Obligations.GradeSetAnswers : Prop :=
  ∀ (s : State) (pf : Nat) (buf : ParamBuf) (p : List Byte), Admitted s pf 0x0002 buf p → p.length = 8 → slot p 0 < 8 →
    ∀ g, g = gradeOf (slot p 0) →
    (s.grade.target ≠ none → Answers (.gradeSet pf buf) s fun t =>
      SettledWith t pf 1 ∧ HardwareSet s t Reg.GLB_GRADE_STATUS 2 15 8 ∧ t.grade = s.grade) ∧
    (s.grade.target = none → s.grade.cur = g → Answers (.gradeSet pf buf) s fun t =>
      SettledWith t pf 0 ∧ HardwareSet s t Reg.GLB_GRADE_STATUS 1 7 0 ∧ t.grade = s.grade) ∧
    (s.grade.target = none → s.grade.cur ≠ g → GradeTable s.grade.cur g s.obs.armed = true → GradeConditions s g →
      Answers (.gradeSet pf buf) s fun t =>
        Working t pf ∧ t.grade.target = some g ∧ t.grade.cur = s.grade.cur ∧ t.grade.byPf = some pf) ∧
    (s.grade.target = none → s.grade.cur ≠ g → GradeTable s.grade.cur g s.obs.armed = false →
      Answers (.gradeSet pf buf) s fun t =>
        SettledWith t pf 7 ∧ HardwareSet s t Reg.GLB_GRADE_STATUS 2 15 8 ∧ t.grade = s.grade)

/-- While a transition is in progress (R30), a GRADE_SET that its channel accepts is answered BUSY_REJECTED (1) and a write of
GLB_GRADE_REQUEST is ignored; either sets REFUSED, raises REFUSED_CNT, sets LAST_STATUS to BUSY_REJECTED and does nothing else.
A submission on a channel that runs a GRADE_SET is refused there and changes no register. -/
def Obligations.SecondTransitionRefused : Prop :=
  ∀ s : State, s.grade.target ≠ none →
    (∀ pf buf p, Admitted s pf 0x0002 buf p → p.length = 8 → slot p 0 < 8 → Answers (.gradeSet pf buf) s fun t =>
      SettledWith t pf 1 ∧ HardwareSet s t Reg.GLB_GRADE_STATUS 2 15 8 ∧ fld t Reg.GLB_GRADE_STATUS 31 16 = 1 ∧
      RegsElsewhere s t [Reg.GLB_GRADE_STATUS, Reg.GLB_GRADE_STATUS_OCC] ∧
      { t with regs := s.regs, chans := s.chans } = s) ∧
    (∀ (m : Master) (v : Word), clocked s = true → reachesBar0 s m = true → Answers (.gradeRequestWrite m v) s fun t =>
      HardwareSet s t Reg.GLB_GRADE_STATUS 2 15 8 ∧ fld t Reg.GLB_GRADE_STATUS 31 16 = 1 ∧
      RegsElsewhere s t [Reg.GLB_GRADE_STATUS, Reg.GLB_GRADE_STATUS_OCC] ∧ { t with regs := s.regs } = s) ∧
    (∀ pf, pf < 8 → clocked s = true → pageReach s pf = true → ∀ cmd, (chanOf s pf).cmd = some cmd → hdrOpcode cmd.hdr = 0x0002 →
      Answers (.cmdSubmit pf 1) s fun t =>
        (chanOf t pf).rejected = true ∧ (chanOf t pf).cmd = some cmd ∧ { t with chans := s.chans } = s)

/-- DRAIN_ACCEPTANCE_STOP, GRADE_TRANSITION_COMPLETE, DRAIN_IDLE_REACHED, DRAIN_TIMEOUT (R34, R36): acceptance stops at the
commit point of a drain, from which the grade is DRAIN; any other transition takes effect as it completes, one to SEALED once
no unencrypted frame is in transmission (assumption 94, DEDUCED); the drain completes
with no fetched work left; its timeout ends it with TIMEOUT (9) and DRAIN_INCOMPLETE, and GRADE_SET's reply carries TIMEOUT
with COMMITTED. -/
def Obligations.GradeTransitionEvents : Prop :=
  ∀ s : State, clocked s = true →
    (s.grade.target = some .drain → s.grade.cur ≠ .drain → Answers .drainAcceptanceStop s fun t =>
      t.grade.cur = .drain ∧ t.grade.committed = true ∧ t.grade.target = some .drain ∧ t.dry.drainFrom = s.grade.cur ∧
      t.regs = s.regs) ∧
    (∀ g, s.grade.target = some g → g ≠ .drain → g ≠ .frozen → (s.grade.cur = .capped → dryerDomainsBack s = true) →
      (g = .sealed → unsealedTx s = false) →
      Answers .gradeTransitionComplete s fun t =>
        t.grade.cur = g ∧ t.grade.target = none ∧ flag t Reg.GLB_GRADE_STATUS 1 = true ∧
        fld t Reg.GLB_GRADE_STATUS 31 16 = 0) ∧
    (s.grade.target = some .drain → s.grade.cur = .drain →
      (noFetchedWork s = true → Answers .drainIdleReached s fun t =>
        t.grade.target = none ∧ t.grade.cur = .drain ∧ HardwareSet s t Reg.GLB_GRADE_STATUS 1 7 0 ∧
        fld t Reg.GLB_GRADE_STATUS 31 16 = 0) ∧
      Answers .drainTimeout s fun t =>
        t.grade.target = none ∧ t.grade.cur = .drain ∧ HardwareSet s t Reg.GLB_GRADE_STATUS 1 7 0 ∧
        HardwareSet s t Reg.GLB_GRADE_STATUS 3 23 16 ∧ fld t Reg.GLB_GRADE_STATUS 31 16 = 9 ∧
        ∀ pf cmd, s.grade.byPf = some pf → (chanOf s pf).cmd = some cmd → hdrOpcode cmd.hdr = 0x0002 →
          cmd.phase = .working → Settled t pf { status := 9, committed := true })

/-- ROOT_FALLBACK, SUPPLY_DROOP, STRETCH_END (R16, R18, R443): the root falls back to REFCLK and says so; a slack below the
rail's DROOP of a monitor that measures starts the stretching of the rail's clocks; its end counts the edges skipped. -/
def Obligations.ClockEvents : Prop :=
  ∀ s : State, clocked s = true →
    (s.grade.rootSyncE = true → Answers .rootFallback s fun t =>
      t.grade = { s.grade with rootSyncE := false } ∧ HardwareSet s t Reg.GLB_CLK_STATUS 8 15 0 ∧
      RegsElsewhere s t [Reg.GLB_CLK_STATUS, Reg.GLB_CLK_STATUS_OCC] ∧
      { t with regs := s.regs, grade := s.grade } = s) ∧
    (∀ mon (slack : Byte), 16 ≤ mon → mon < 256 → monLive s mon = true →
      slack.toNat < fld s (Reg.CAL_RAIL_CFG (monRail mon)) 15 8 → Answers (.supplyDroop mon slack) s fun t =>
        monRail mon ∈ t.dry.stretching ∧ fld t (Reg.CAL_MON mon) 7 0 = slack.toNat ∧
        RegsElsewhere s t [Reg.CAL_MON mon] ∧ { t with regs := s.regs, dry := s.dry } = s) ∧
    (∀ rail edges, rail < 2 → rail ∈ s.dry.stretching → Answers (.stretchEnd rail edges) s fun t =>
      rail ∉ t.dry.stretching ∧ rd64 t Reg.GLB_STRETCH_CNT = (rd64 s Reg.GLB_STRETCH_CNT + edges) % 2 ^ 48 ∧
      { t with regs := s.regs, dry := s.dry } = s)


/-! ## The dryer -/

/-- DRY_CAP_SET, DRY_DOMAIN_SET, DRY_QUERY (R423, R427, R430): a cap from 120 W to the variant's maximum is stored and answered
OK, any other BAD_PARAM; a domain to open that is CLOSED is OPENING and the command waits, one that is OPEN is answered OK; a
domain to close is taken up; a query answers 113 bytes. -/
def Obligations.DryerCommands : Prop :=
  ∀ (s : State) (pf : Nat) (buf : ParamBuf) (p : List Byte),
    (Admitted s pf 0x0900 buf p → p.length = 8 → 120 ≤ slot p 0 →
      (slot p 0 ≤ (match s.variant with | .ax => 300 | .bx => 190) → Answers (.dryCapSet pf buf) s fun t =>
        SettledWith t pf 0 ∧ fld t Reg.DRY_CAP 8 0 = slot p 0 ∧ RegsElsewhere s t [Reg.DRY_CAP] ∧
        { t with regs := s.regs, chans := s.chans } = s) ∧
      ((match s.variant with | .ax => 300 | .bx => 190) < slot p 0 → Answers (.dryCapSet pf buf) s fun t =>
        SettledWith t pf 4 ∧ { t with chans := s.chans } = s)) ∧
    (Admitted s pf 0x0901 buf p → p.length = 24 → slot p 0 < 29 → slotOpt p 2 = none →
      (slot p 1 = 0 → mayOpen s (slot p 0) = true → fld s (Reg.DRY_DOMAIN_STATE (slot p 0)) 2 0 = 2 →
        Answers (.dryDomainSet pf buf) s fun t =>
          Working t pf ∧ fld t (Reg.DRY_DOMAIN_STATE (slot p 0)) 2 0 = 3 ∧ t.dry.domCmd = some (slot p 0, true)) ∧
      (slot p 1 = 0 → mayOpen s (slot p 0) = true → fld s (Reg.DRY_DOMAIN_STATE (slot p 0)) 2 0 = 0 →
        Answers (.dryDomainSet pf buf) s fun t => SettledWith t pf 0 ∧ fld t (Reg.DRY_DOMAIN_STATE (slot p 0)) 2 0 = 0) ∧
      (slot p 1 = 1 → 8 ≤ slot p 0 → domPresent s (slot p 0) = true → mayClose s (slot p 0) = true →
        fld s (Reg.DRY_DOMAIN_STATE (slot p 0)) 2 0 = 0 →
        Answers (.dryDomainSet pf buf) s fun t =>
          Working t pf ∧ slot p 0 ∈ t.dry.toClose ∧ t.dry.domCmd = some (slot p 0, false))) ∧
    (Admitted s pf 0x0902 buf p → p = [] → Answers (.dryQuery pf buf) s fun t =>
      ∃ r, Settled t pf r ∧ r.status = 0 ∧ r.out.length = 113)

/-- DOMAIN_CLOSE_START, DOMAIN_DRAIN_LIMIT, DOMAIN_CLOSED, DOMAIN_OPEN_DONE (R421 to R426): an OPEN domain meant to close is
CLOSING; at the drain limit a CLOSING quire's threads stop and it is OFF; a CLOSING domain with nothing outstanding is CLOSED;
an OPENING domain is OPEN. -/
def Obligations.DomainEvents : Prop :=
  ∀ (s : State) (d : Nat), clocked s = true → d < 29 →
    (d ∈ s.dry.toClose → fld s (Reg.DRY_DOMAIN_STATE d) 2 0 = 0 → .domain d ∉ s.dry.steps →
      Answers (.domainCloseStart d) s fun t =>
        fld t (Reg.DRY_DOMAIN_STATE d) 2 0 = 1 ∧ d ∉ t.dry.toClose ∧ RegsElsewhere s t [Reg.DRY_DOMAIN_STATE d]) ∧
    (fld s (Reg.DRY_DOMAIN_STATE d) 2 0 = 1 →
      (d < 8 → Answers (.domainDrainLimit d) s fun t =>
        quireState t d = 0 ∧ (∀ i < 8, coreOf t (8 * d + i) = {}) ∧ fld t (Reg.DRY_DOMAIN_STATE d) 2 0 = 1) ∧
      (domEmpty s d = true → d ∉ s.dry.reopen → Answers (.domainClosed d) s fun t =>
        fld t (Reg.DRY_DOMAIN_STATE d) 2 0 = 2 ∧ (d < 8 → quireState t d = 0) ∧
        (27 ≤ d → flag t (Reg.HBM_STATUS (d - 27)) 3 = true))) ∧
    (fld s (Reg.DRY_DOMAIN_STATE d) 2 0 = 3 → Answers (.domainOpenDone d true) s fun t =>
      fld t (Reg.DRY_DOMAIN_STATE d) 2 0 = 0 ∧ (27 ≤ d → flag t (Reg.HBM_STATUS (d - 27)) 3 = false))

/-- ACCOUNTING_STEP, ESTIMATE_CORRECTION, CAP_CHECK, CAP_STEP_UNDO, CORE_CLK_RAISE (R428 to R432): the tokens of a microsecond
enter the 1,000 that AVAILABLE is reckoned from, and DRY_SPENT; what the regulators report replaces the estimates; a floor
that comes to exceed the effective cap sets OVER_CAP; the first step lowers one quire's divider, of those the grade lets be
lowered that run no SCHEDULED thread; the latest step is undone; a quire is raised to the divider it should have. -/
def Obligations.BudgetEvents : Prop :=
  ∀ s : State, clocked s = true →
    (∀ spent, (∀ q ∈ s.wq.queues, waitingItem q.2 = none) → Answers (.accountingStep spent []) s fun t =>
      t.dry.spent = (spent :: s.dry.spent).take 1000 ∧ rd64 t Reg.DRY_SPENT = (rd64 s Reg.DRY_SPENT + spent) % 2 ^ 48) ∧
    (∀ reported deciWatt floor, Answers (.estimateCorrection reported deciWatt floor) s fun t =>
      fld t Reg.DRY_POWER 15 0 = deciWatt % 2 ^ 16 ∧ fld t Reg.DRY_FLOOR 8 0 = floor % 2 ^ 9 ∧
      (∀ r < 2, ∀ v, reported[r]? = some v → fld t (Reg.CAL_RAIL_STATUS r) 25 16 = v % 2 ^ 10) ∧
      { t with regs := s.regs } = s) ∧
    (Answers .capCheck s fun t => t.dry.lastAvail = available s ∧
      (effCap s < fld s Reg.DRY_FLOOR 8 0 → s.dry.overCap = false → flag t Reg.DRY_STATUS 1 = true)) ∧
    (s.dry.emergency = false → s.grade.cur = .throughput → available s ≤ s.dry.lastAvail →
      available s < (fld s Reg.DRY_CFG 31 24 * depth s / 256 : Nat) → slowable s false ≠ [] → Answers .capCheck s fun t =>
        ∃ q ∈ slowable s false, t.dry.steps = .quire q :: s.dry.steps ∧ quireDiv t q = quireDiv s q + 1) ∧
    (∀ q rest, s.dry.steps = .quire q :: rest → s.dry.emergency = false →
      (fld s Reg.DRY_CFG 23 16 * depth s / 256 : Nat) ≤ available s →
      (∀ i < 64, forecastOf s i + 3 ≤ tjLimit s) → Answers .capStepUndo s fun t =>
        t.dry.steps = rest ∧ { t with dry := s.dry } = s) ∧
    (∀ q reported, q < quireCount s.variant → Answers (.coreClkRaise q reported) s fun t =>
      quireDiv t q = divTarget s q ∧ fld t (Reg.CAL_RAIL_STATUS 0) 25 16 = reported % 2 ^ 10 ∧
      RegsElsewhere s t [Reg.CAL_RAIL_STATUS 0, Reg.QUIRE_STATUS q] ∧ { t with regs := s.regs } = s)

/-- RAMP_START, RAMP_END, AVS_LOOP, MARGIN_EXHAUSTED, AVS_FAULT (R437, R442, R444): the ramp a reservation calls for is in
force until 1 µs after its window closes, and raises the rail's set point; a lowest slack under the target by more than the
hysteresis raises the set point by one step, within the rail's limits, from 10 ms after POR_N release on (R473); a rail at its maximum sets MARGIN_EXHAUSTED; a failed
regulator holds the rail, and every quire runs at root/3 or slower. -/
def Obligations.VoltageEvents : Prop :=
  ∀ s : State, clocked s = true →
    (∀ mac r, mac < macCount s.variant → rampDue s mac = some r → Answers (.rampStart mac false) s fun t =>
      t.dry.ramps = s.dry.ramps ++ [(mac, r.closes)] ∧
      (s.dry.ramps = [] → 1 ∉ s.dry.avsHeld → avsOwned s = true → fld t (Reg.CAL_RAIL_STATUS 1) 9 0 =
        max (fld s (Reg.CAL_RAIL_STATUS 1) 9 0) (min 900 (fld s (Reg.CAL_RAIL_STATUS 1) 9 0 + fld s Reg.DRY_RAMP 23 16)))) ∧
    (∀ mac, mac < macCount s.variant → Answers (.rampEnd mac) s fun t =>
      (∀ r, r ∈ t.dry.ramps ↔ r ∈ s.dry.ramps ∧ ¬(r.1 = mac ∧ r.2 + oneUs ≤ phcNow s (portPhc s mac))) ∧
      { t with dry := s.dry } = s) ∧
    (∀ rail mon (slack : Byte), rail < 2 → monRail mon = rail → monLive s mon = true → rail ∉ s.dry.avsHeld →
      avsOwned s = true →
      slack.toNat + fld s (Reg.CAL_RAIL_CFG rail) 23 16 < fld s (Reg.CAL_RAIL_CFG rail) 31 24 →
      0 < fld s (Reg.CAL_RAIL_CFG rail) 7 4 → Answers (.avsLoop rail [(mon, slack)] true) s fun t =>
        fld t (Reg.CAL_RAIL_STATUS rail) 9 0 = max 650 (min (if rail = 0 then 950 else 900)
          (fld s (Reg.CAL_RAIL_STATUS rail) 9 0 + fld s (Reg.CAL_RAIL_CFG rail) 7 4))) ∧
    (∀ rail, rail < 2 → (if rail = 0 then 950 else 900) ≤ fld s (Reg.CAL_RAIL_STATUS rail) 9 0 →
      Answers (.marginExhausted rail) s fun t => HardwareSet s t Reg.DRY_STATUS 5 27 24) ∧
    (∀ rail, rail < 2 → Answers (.avsFault rail) s fun t =>
      rail ∈ t.dry.avsHeld ∧ HardwareSet s t Reg.DRY_STATUS 6 31 28 ∧
      ∀ q < quireCount s.variant, 1 ≤ quireDiv t q)

/-- THERMAL_FORECAST, THERMAL_CAP_STEP, THERMAL_EMERGENCY, THERMAL_EMERGENCY_END, THERMAL_TRIP (R438 to R440, R486): a sensor's
reading and its forecast are shown; a forecast above TJ_LIMIT lowers the effective cap by 2 W, not below 120 W, and forecasts
all 3 °C under it raise it by 2 W, not above the grade's cap; 108 °C at a sensor is an emergency, which puts every quire at
root/6 until every sensor reads 100 °C or less; a trip holds the device as POR_N does, DEVICE_TIME at 0, and drives
THERM_TRIP_N low. The forecast itself is a value the spec does not give (assumption 17, DESIGN CHOICE). -/
def Obligations.ThermalEvents : Prop :=
  ∀ s : State, clocked s = true →
    (∀ sensor (temp : Byte) power, sensor < 64 → Answers (.thermalForecast sensor temp power) s fun t =>
      fld t (Reg.DRY_TEMP sensor) 7 0 = temp.toNat ∧
      fld t (Reg.DRY_TEMP sensor) 15 8 = (Config.thermalForecast sensor temp power (reservedTokens s)).toNat ∧
      RegsElsewhere s t [Reg.DRY_TEMP sensor]) ∧
    ((∃ i < 64, tjLimit s < forecastOf s i) → Answers .thermalCapStep s fun t =>
      fld t Reg.DRY_EFF_CAP 24 16 = max (min (fld s Reg.DRY_EFF_CAP 24 16) 120) (fld s Reg.DRY_EFF_CAP 24 16 - 2) ∧
      HardwareSet s t Reg.DRY_STATUS 3 19 16) ∧
    ((∀ i < 64, forecastOf s i + 3 ≤ tjLimit s) → fld s Reg.DRY_EFF_CAP 24 16 < gradeCap s →
      Answers .thermalCapStep s fun t =>
        fld t Reg.DRY_EFF_CAP 24 16 = min (gradeCap s) (fld s Reg.DRY_EFF_CAP 24 16 + 2) ∧
        RegsElsewhere s t [Reg.DRY_EFF_CAP] ∧ { t with regs := s.regs } = s) ∧
    (∀ sensor (temp : Byte), sensor < 64 → 108 ≤ degrees temp.toNat → s.dry.emergency = false →
      Answers (.thermalEmergency sensor temp) s fun t =>
        t.dry.emergency = true ∧ HardwareSet s t Reg.DRY_STATUS 4 23 20 ∧ fld t (Reg.DRY_TEMP sensor) 7 0 = temp.toNat ∧
        ∀ q < quireCount s.variant, quireDiv t q = 3) ∧
    ((∀ i < 64, tempOf s i ≤ 100) → Answers .thermalEmergencyEnd s fun t => t.dry.emergency = false ∧ t.regs = s.regs) ∧
    (∀ sensor, sensor < 64 → Answers (.thermalTrip sensor) s fun t =>
      t.power = .tripped ∧ t.deviceTime = 0 ∧ t.grade.cur = .provision ∧ t.mem = {} ∧
      t.out = .pin "THERM_TRIP_N" false :: s.out ∧ flag t Reg.BOOT_RESET_CAUSE 3 = true)


/-! ## Ports, MAC and headbox -/

/-- SHAPE_WRITE, PORT_ENABLE, PORT_DISABLE, TX_FFE_WRITE, QI_PARTNER_WRITE (R41, R43, R44, R49, R60, R61, R64, R70): the
guarded writes of a port. -/
def Obligations.PortWrites : Prop :=
  ∀ (s : State) (m : Master) (v : Word), clocked s = true → reachesBar0 s m = true →
    (∀ lg, 4 * lg < macCount s.variant → ∀ u, u = setFld s (Reg.MAC_LG_CFG lg) 3 0 (bits v 3 0) →
      ((∃ i, i < 4 ∧ portEn s (4 * lg + i) = true) → Answers (.shapeWrite m lg v) s fun t =>
        HardwareSet s t (Reg.MAC_PORT_STATUS (4 * lg)) 5 7 0 ∧
        RegsElsewhere s t [Reg.MAC_PORT_STATUS (4 * lg), Reg.MAC_PORT_STATUS_OCC (4 * lg)] ∧
        { t with regs := s.regs } = s) ∧
      ((∀ i, i < 4 → portEn s (4 * lg + i) = false) →
        (8 < bits v 3 0 → Answers (.shapeWrite m lg v) s fun t => t = s) ∧
        (bits v 3 0 ≤ 8 → reservesFit u = false → inletCells u < inletReserved u → Answers (.shapeWrite m lg v) s fun t =>
          HardwareSet s t Reg.HBX_CFG_STATUS 0 7 0 ∧ shapeOf t lg = shapeOf s lg ∧ { t with regs := s.regs } = s) ∧
        (bits v 3 0 ≤ 8 → reservesFit u = false → inletReserved u ≤ inletCells u → Answers (.shapeWrite m lg v) s fun t =>
          HardwareSet s t Reg.DKL_EGR_STATUS 0 7 0 ∧ shapeOf t lg = shapeOf s lg ∧ { t with regs := s.regs } = s) ∧
        (bits v 3 0 ≤ 8 → reservesFit u = true → Answers (.shapeWrite m lg v) s fun t =>
          shapeOf t lg = bits v 3 0 ∧ { t with regs := s.regs, pkt := s.pkt } = s ∧
          (∀ mac, { portOf t mac with twPending := none } = { portOf s mac with twPending := none }) ∧
          (∀ i, i < 4 → rd t (Reg.MAC_TS_CORR_INT (4 * lg + i)) =
            if laneRate (bits v 3 0) = 200 ∨ bits v 3 0 = 0 then 0x02600608 else 0x034008D0) ∧
          (∀ d, d ∈ groupDomains lg → fld t (Reg.DRY_DOMAIN_STATE d) 3 0 =
            if bits v 3 0 = 0 then 2 else if shapeOf s lg = 0 then 3 else fld s (Reg.DRY_DOMAIN_STATE d) 3 0)))) ∧
    (∀ mac, mac < macCount s.variant →
      (∀ c, c ∈ [Instr.portEnable m mac v, Instr.portDisable m mac v] →
        (bits v 16 16 = 1 → s.pkt.squelched = false → portEn s mac = false → mayEnable s mac = true →
          Answers c s fun t => portEn t mac = true ∧
            ((∀ k, k < 8 → bindsNow s mac k = false) → { t with regs := s.regs } = s ∧
              RegsElsewhere s t [Reg.MAC_PORT_CFG mac, Reg.MAC_QI_STATUS mac, Reg.DKL_PREEMPT_STATUS mac])) ∧
        (bits v 16 16 = 1 → s.pkt.squelched = false → portEn s mac = false → mayEnable s mac = false →
          Answers c s fun t => portEn t mac = false ∧ HardwareSet s t (Reg.MAC_PORT_STATUS mac) 5 7 0) ∧
        (bits v 16 16 = 0 → s.pkt.squelched = false → portEn s mac = true → Answers c s fun t =>
          portEn t mac = false ∧ fld t (Reg.MAC_PORT_STATUS mac) 2 0 = 0 ∧ (portOf t mac).paused = [] ∧
          fld t (Reg.DKL_PREEMPT_STATUS mac) 2 0 = (flag s (Reg.DKL_PREEMPT_CFG mac) 31).toNat ∧
          (∀ c, c < 8 → queueOf (portOf t mac) c = []) ∧ (portOf t mac).inTx = none ∧ (portOf t mac).rest = none) ∧
        (s.pkt.squelched = true → Answers c s fun t =>
          (portOf t mac).heldEn = some (bits v 16 16 == 1) ∧ portEn t mac = portEn s mac)) ∧
      Answers (.qiPartnerWrite m mac v) s fun t =>
        fld t (Reg.MAC_QI_PARTNER mac) 14 0 = bits v 14 0 ∧ flag t (Reg.MAC_QI_PARTNER mac) 31 = (bits v 31 31 == 1) ∧
        fld s (Reg.MAC_QI_STATUS mac) 15 0 ≤ fld t (Reg.MAC_QI_STATUS mac) 15 0 ∧
        (flag s (Reg.MAC_QI_LOCAL mac) 31 = true → bits v 31 31 = 1 →
          ∀ tw, tw = max (fld s (Reg.MAC_QI_LOCAL mac) 30 16) (bits v 14 0) →
          fld t (Reg.MAC_QI_STATUS mac) 15 0 = max (fld s (Reg.MAC_QI_STATUS mac) 15 0) tw ∧
          (portOf t mac).twPending = (if fld s (Reg.MAC_QI_STATUS mac) 15 0 ≤ tw then none else some tw) ∧
          fld t (Reg.MAC_QI_STATUS mac) 17 16 = if laneRate (shapeOf s (groupOf mac)) = 200 then 2 else 1) ∧
        (bits v 31 31 = 0 → fld t (Reg.MAC_QI_STATUS mac) 17 16 = 0 ∧ flag t (Reg.MAC_QI_STATUS mac) 18 = false)) ∧
    (∀ lane, lane < 2 * macCount s.variant →
      (tapsFit v = true → Answers (.txFfeWrite m lane v) s fun t =>
        rd t (Reg.MAC_LANE_TX_FFE (lane / 2) (lane % 2)) = v ∧
        RegsElsewhere s t [Reg.MAC_LANE_TX_FFE (lane / 2) (lane % 2)] ∧ { t with regs := s.regs } = s) ∧
      (tapsFit v = false → Answers (.txFfeWrite m lane v) s fun t => t = s))

/-- LANE_RETUNE, LLDPDU_TRANSMIT, LPI_ENTRY, LPI_WAKE, LINK_DOWN, LINK_UP, LINK_RETURN, HOLD_EXPIRY (R27, R45 to R49, R60
to R62, R66 to R69, R245, R250): what happens on a port's line. The octets of the LLDPDU beyond what firmware gives are
log entry 91's. -/
def Obligations.PortLineEvents : Prop :=
  ∀ s : State, clocked s = true →
    (∀ lane eye, lane < 2 * macCount s.variant →
      ((macOfLane s lane).any (fun mac => portEn s mac && linkUp s mac) = false →
        Answers (.laneRetune lane eye) s fun t => t = s) ∧
      (∀ mac, macOfLane s lane = some mac → portEn s mac = true → linkUp s mac = true →
        Answers (.laneRetune lane eye) s fun t =>
        ∀ st, st = Reg.MAC_LANE_EQ_STATUS (lane / 2) (lane % 2) →
        ∀ ctrl, ctrl = Reg.MAC_LANE_EQ_CTRL (lane / 2) (lane % 2) →
        fld t st 31 24 = eye.height.toNat ∧ fld t st 23 16 = eye.width.toNat ∧
        (eye.height.toNat < fld s ctrl 15 8 → flag t st 0 = true) ∧
        (flag s ctrl 0 = true → fld t st 15 8 = fld s st 15 8 ∧ t.pkt = s.pkt) ∧
        (flag s ctrl 0 = false →
          fld t st 15 8 = (if flag s ctrl 3 then min 255 ((fld s st 15 8 : Int) + oneStep eye.ctle).toNat
            else fld s st 15 8) ∧
          tgetD t.pkt.ffe lane [] = (if flag s ctrl 4 then stepAll (tgetD s.pkt.ffe lane []) eye.ffe
            else tgetD s.pkt.ffe lane []) ∧
          tgetD t.pkt.dfe lane [] = (if flag s ctrl 5 then stepAll (tgetD s.pkt.dfe lane []) eye.dfe
            else tgetD s.pkt.dfe lane [])))) ∧
    (∀ mac, mac < macCount s.variant →
      (∀ head, ∀ b, b = lldpFrame s mac head → ∀ n, n = fld s (Reg.CPH_PORT_CFG mac) 21 0 →
        (portEn s mac = false ∨ linkUp s mac = false → Answers (.lldpduTransmit ⟨mac, head⟩) s fun t => t = s) ∧
        (portEn s mac = true → linkUp s mac = true →
          (flag s (Reg.CPH_PORT_CFG mac) 31 = false → s.grade.cur ≠ .sealed → Answers (.lldpduTransmit ⟨mac, head⟩) s fun t =>
            Emits s t (.lldp mac (withFcs b)) ∧ (portOf t mac).twPending = none ∧
            Counted s t (Reg.TX_FRAMES_OK mac) 1 ∧
            ∀ tw, (portOf s mac).twPending = some tw → fld t (Reg.MAC_QI_STATUS mac) 15 0 = tw % 65536) ∧
          (flag s (Reg.CPH_PORT_CFG mac) 31 = true → saUsable s n = true → (saOf s n).typ = 1 →
            (s.grade.cur = .sealed → saConf (saOf s n) = true) → Answers (.lldpduTransmit ⟨mac, head⟩) s fun t =>
            (∃ an, an < 4 ∧ ∃ sc : Bool, Emits s t (.lldp mac (withFcs (macsecSeal (saOf s n) (saOf s n).seq an sc b)))) ∧
            (portOf t mac).twPending = none ∧
            Counted s t (Reg.TX_FRAMES_OK mac) 1) ∧
          ((flag s (Reg.CPH_PORT_CFG mac) 31 = false ∧ s.grade.cur = .sealed) ∨
            (flag s (Reg.CPH_PORT_CFG mac) 31 = true ∧ (saUsable s n = false ∨ (saOf s n).typ ≠ 1 ∨
              (s.grade.cur = .sealed ∧ saConf (saOf s n) = false))) → Answers (.lldpduTransmit ⟨mac, head⟩) s fun t =>
            (portOf t mac).twPending = (portOf s mac).twPending ∧
            rd64 t (Reg.TX_FRAMES_OK mac) = rd64 s (Reg.TX_FRAMES_OK mac)))) ∧
      (txEmpty s mac = false ∨ gateSoon s mac = true → Answers (.lpiEntry mac) s fun t => t = s) ∧
      (flag s (Reg.MAC_PORT_CFG mac) 17 = true → linkUp s mac = true → fld s (Reg.MAC_QI_STATUS mac) 17 16 ≠ 0 →
        flag s (Reg.MAC_QI_STATUS mac) 18 = false → txEmpty s mac = true → gateSoon s mac = false →
        Answers (.lpiEntry mac) s fun t =>
          flag t (Reg.MAC_QI_STATUS mac) 18 = true ∧ Counted s t (Reg.LPI_ENTRIES mac) 1 ∧
          RegsElsewhere s t [Reg.MAC_QI_STATUS mac, Reg.LPI_ENTRIES mac, Reg.LPI_ENTRIES mac + 4] ∧
          { t with regs := s.regs } = s) ∧
      (txEmpty s mac = false → s.grade.cur ≠ .standby → Answers (.lpiWake mac) s fun t =>
        flag t (Reg.MAC_QI_STATUS mac) 18 = false ∧ RegsElsewhere s t [Reg.MAC_QI_STATUS mac] ∧ { t with regs := s.regs } = s) ∧
      (txEmpty s mac = true ∨ s.grade.cur = .standby → Answers (.lpiWake mac) s fun t => t = s) ∧
      (∀ offered lanes, portEn s mac = true → servesPort s mac = true → linkUp s mac = false →
        offered.contains (laneRate (shapeOf s (groupOf mac))) = true → Answers (.linkUp ⟨mac, offered, lanes⟩) s fun t =>
        linkUp t mac = true ∧
        (∀ l, l ∈ lanesOf s mac → flag t (Reg.MAC_LANE_EQ_STATUS (l / 2) (l % 2)) 1 = true) ∧
        (∀ l r, (l, r) ∈ (lanesOf s mac).zip lanes →
          (flag s (Reg.MAC_LANE_EQ_CTRL (l / 2) (l % 2)) 6 = true →
            rd t (Reg.MAC_LANE_TX_FFE (l / 2) (l % 2)) = r.txFfe) ∧
          (flag s (Reg.MAC_LANE_EQ_CTRL (l / 2) (l % 2)) 0 = false →
            fld t (Reg.MAC_LANE_EQ_STATUS (l / 2) (l % 2)) 15 8 = r.ctle.toNat ∧
            tgetD t.pkt.ffe l [] = r.ffe ∧ tgetD t.pkt.dfe l [] = r.dfe))) ∧
      (∀ offered lanes, offered.contains (laneRate (shapeOf s (groupOf mac))) = false →
        Answers (.linkUp ⟨mac, offered, lanes⟩) s fun t => t = s) ∧
      (portEn s mac = true → linkUp s mac = true → Answers (.linkDown mac) s fun t =>
        linkUp t mac = false ∧ flag t (Reg.MAC_PORT_STATUS mac) 7 = true ∧ (portOf t mac).paused = [] ∧
        (portOf t mac).inTx = none ∧ (portOf t mac).rest = none ∧ flag t (Reg.MAC_QI_STATUS mac) 18 = false ∧
        fld t (Reg.DKL_PREEMPT_STATUS mac) 2 0 = (flag s (Reg.DKL_PREEMPT_CFG mac) 31).toNat ∧
        (flag s (Reg.MAC_PORT_STATUS mac) 1 = false → flag s (Reg.MAC_PORT_STATUS mac) 2 = false →
          flag t (Reg.MAC_PORT_STATUS mac) 2 = (fld s (Reg.MAC_HOLD_CFG mac) 25 16 != 0) ∧
          flag t (Reg.MAC_PORT_STATUS mac) 1 = (fld s (Reg.MAC_HOLD_CFG mac) 25 16 == 0))) ∧
      (linkUp s mac = false → Answers (.linkReturn mac) s fun t => t = s) ∧
      (linkUp s mac = true → Answers (.linkReturn mac) s fun t =>
        flag t (Reg.MAC_PORT_STATUS mac) 1 = false ∧ flag t (Reg.MAC_PORT_STATUS mac) 2 = false ∧
        (flag s (Reg.MAC_PORT_STATUS mac) 2 = true →
          (∀ c, c < 8 → ∀ f ∈ queueOf (portOf s mac) c, f.preload = false) →
          Counted s t (Reg.HOLD_RETURNS mac) 1 ∧
          ∀ c, c < 8 → (((queueOf (portOf t mac) c).filter fun f => !f.preload).head?.bind (returnVerdict s mac)) = none)) ∧
      (flag s (Reg.MAC_PORT_STATUS mac) 2 = false → Answers (.holdExpiry mac) s fun t => t = s) ∧
      (flag s (Reg.MAC_PORT_STATUS mac) 2 = true → Answers (.holdExpiry mac) s fun t =>
        flag t (Reg.MAC_PORT_STATUS mac) 2 = false ∧ flag t (Reg.MAC_PORT_STATUS mac) 1 = true ∧
        flag t (Reg.MAC_PORT_STATUS mac) 6 = true ∧ ∀ c, c < 8 → queueOf (portOf t mac) c = []))

/-- FRAME_RECEIVE, PAUSE_RECEIVE, PFC_RECEIVE, PAUSE_TIMER_EXPIRY, XOFF_REFRESH (R51, R52, R54 to R56, R58, R74, R155,
R156, R159, R180): receiving a frame and flow control. A port that is disabled, down or squelched takes nothing. Which of
several errors counts is log entry 32's, priorities of one class entry 90's, the length of a control frame entry 91's. -/
def Obligations.ReceiveAndFlowControl : Prop :=
  ∀ s : State, clocked s = true → ∀ mac, mac < macCount s.variant →
    (portEn s mac = false ∨ linkUp s mac = false ∨ s.pkt.squelched = true →
      (∀ rx, Answers (.frameReceive mac rx) s fun t => t = s) ∧
      (∀ quanta, Answers (.pauseReceive mac quanta) s fun t => t = s) ∧
      (∀ en quanta, Answers (.pfcReceive mac en quanta) s fun t => t = s)) ∧
    (portEn s mac = true → linkUp s mac = true → s.pkt.squelched = false → ∀ rx : RxFrame,
      Answers (.frameReceive mac rx) s fun t =>
        ∀ cap, cap = captureOf s (portOf s mac).rxCap rx.capture →
        ∀ len, len = rx.bytes.length →
        Counted s t (Reg.FEC_CORRECTED mac) rx.corrected ∧ Counted s t (Reg.FEC_UNCORRECTED mac) rx.uncorrectable ∧
        Counted s t (Reg.MM_FRAG_RX mac) (fragmentsOf rx.assembly) ∧ (portOf t mac).rxCap = cap ∧
        (0 < rx.uncorrectable → Counted s t (Reg.RX_FEC_DISCARD mac) 1 ∧ t.pkt.arrived = s.pkt.arrived) ∧
        (rx.uncorrectable = 0 →
          (∀ n, rx.assembly = .assyError n → Counted s t (Reg.MM_ASSY_ERR mac) 1 ∧ t.pkt.arrived = s.pkt.arrived) ∧
          (∀ n, rx.assembly = .smdError n → Counted s t (Reg.MM_SMD_ERR mac) 1 ∧ t.pkt.arrived = s.pkt.arrived) ∧
          (∀ n, rx.assembly = .fragments n → Counted s t (Reg.MM_ASSY_OK mac) 1) ∧
          (rx.assembly = .whole ∨ rx.assembly = .fragments (fragmentsOf rx.assembly) →
            (len < 64 → Counted s t (Reg.RX_RUNT mac) 1 ∧ t.pkt.arrived = s.pkt.arrived) ∧
            (64 ≤ len → maxFrame s mac < len → Counted s t (Reg.RX_OVERSIZE mac) 1 ∧ t.pkt.arrived = s.pkt.arrived) ∧
            (64 ≤ len → len ≤ maxFrame s mac → rx.fcsBad = true →
              Counted s t (Reg.RX_FCS_ERR mac) 1 ∧ t.pkt.arrived = s.pkt.arrived) ∧
            (64 ≤ len → len ≤ maxFrame s mac → rx.fcsBad = false →
              Counted s t (Reg.RX_FRAMES_OK mac) 1 ∧ Counted s t (Reg.RX_OCTETS_OK mac) len ∧
              (beAt rx.bytes 12 2 = 0x8808 → t.pkt.arrived = s.pkt.arrived ∧
                (beAt rx.bytes 14 2 = 0x0001 ∨ beAt rx.bytes 14 2 = 0x0101 → Counted s t (Reg.RX_PAUSE mac) 1)) ∧
              (beAt rx.bytes 12 2 ≠ 0x8808 → dataOn s = false → t.pkt.arrived = s.pkt.arrived) ∧
              (beAt rx.bytes 12 2 ≠ 0x8808 → dataOn s = true →
                ((frerRecover s mac rx.bytes).1 = none → t.pkt.arrived = s.pkt.arrived) ∧
                (∀ b, (frerRecover s mac rx.bytes).1 = some b →
                  tgetD t.pkt.arrived mac [] = tgetD s.pkt.arrived mac [] ++ [
                    { mac := mac, cls := 0, ctrl := false, pool := .none, cells := 0, bytes := b
                      ts := (shortTime (rxTime s mac cap), timeFrac (rxTime s mac cap))
                      at' := s.deviceTime.toNat }])))))) ∧
    (portEn s mac = true → linkUp s mac = true → s.pkt.squelched = false →
      (∀ quanta, Answers (.pauseReceive mac quanta) s fun t =>
        Counted s t (Reg.RX_PAUSE mac) 1 ∧ Counted s t (Reg.RX_FRAMES_OK mac) 1 ∧ Counted s t (Reg.RX_OCTETS_OK mac) ctlOctets ∧
        (fld s (Reg.MAC_PFC_CFG mac) 25 24 = 1 → ∀ c, c < 8 →
          tget (portOf t mac).paused c = if quanta = 0 then none else some quanta) ∧
        (fld s (Reg.MAC_PFC_CFG mac) 25 24 ≠ 1 → t.pkt = s.pkt)) ∧
      (∀ (en : Byte) (quanta : List Nat),
        ∀ named, named = ((List.range 8).filter fun p => en.getLsbD p && pfcIgnoreEff s mac / 2 ^ p % 2 == 0) →
        Answers (.pfcReceive mac en quanta) s fun t =>
          Counted s t (Reg.RX_PAUSE mac) 1 ∧ Counted s t (Reg.RX_FRAMES_OK mac) 1 ∧ Counted s t (Reg.RX_OCTETS_OK mac) ctlOctets ∧
          (fld s (Reg.MAC_PFC_CFG mac) 25 24 ≠ 2 → t.pkt = s.pkt) ∧
          (fld s (Reg.MAC_PFC_CFG mac) 25 24 = 2 →
            (en.toNat &&& pfcIgnoreEff s mac ≠ 0 → Counted s t (Reg.RX_PFC_IGNORED mac) 1) ∧
            (∀ c, c < 8 → (∀ p, p ∈ named → prioClass s mac p ≠ c) →
              tget (portOf t mac).paused c = tget (portOf s mac).paused c) ∧
            (∀ p, p ∈ named → (∀ q, q ∈ named → p < q → prioClass s mac q ≠ prioClass s mac p) →
              tget (portOf t mac).paused (prioClass s mac p) =
                if quanta.getD p 0 = 0 then none else some (quanta.getD p 0))))) ∧
    (∀ c, c < 8 → Answers (.pauseTimerExpiry mac c) s fun t =>
      tget (portOf t mac).paused c = none ∧ (∀ d, d ≠ c → tget (portOf t mac).paused d = tget (portOf s mac).paused d) ∧
      t.regs = s.regs) ∧
    (∀ p, p < 8 → ∀ c, c = prioClass s mac p →
      (flag s (Reg.HBX_CLASS_USED mac c) 31 = true → flag s (Reg.MAC_PFC_CFG mac) (8 + p) = true →
        portEn s mac = true → linkUp s mac = true → Answers (.xoffRefresh mac p) s fun t =>
        Emits s t (.pause mac (BitVec.ofNat 8 (2 ^ p)) ((List.range 8).map fun q =>
          if q = p then fld s (Reg.MAC_PFC_TX_TIME mac) 15 0 else 0)) ∧
        Counted s t (Reg.TX_PAUSE mac) 1 ∧
        Counted s t (Reg.TX_FRAMES_OK mac) 1 ∧
        t.pkt = s.pkt ∧ ∀ a, unitOf a ≠ 0x300 + mac → rd t a = rd s a) ∧
      (flag s (Reg.HBX_CLASS_USED mac c) 31 = false ∨ flag s (Reg.MAC_PFC_CFG mac) (8 + p) = false ∨
        portEn s mac = false ∨ linkUp s mac = false → Answers (.xoffRefresh mac p) s fun t => t = s))

/-- INLET_ADMISSION, THRESHOLD_RECOMPUTE, HBX_CFG_WRITE, EGRESS_CFG_WRITE (R78 to R80, R132): the first rule of R78 that
holds takes the frame's cells, or the frame is dropped and counted; the thresholds follow the free cells; a configuration
write that would overcommit its region is ignored with CFG_ERR. -/
def Obligations.HeadboxRules : Prop :=
  ∀ s : State, clocked s = true →
    (∀ mac f rest, mac < macCount s.variant → tgetD s.pkt.arrived mac [] = f :: rest → f.mac = mac →
      (s.pkt.unfilled.contains (rxRole s mac) = true → Answers (.inletAdmission mac) s fun t =>
        tgetD t.pkt.arrived mac [] = rest ∧ t.pkt.inlet = s.pkt.inlet) ∧
      (s.pkt.unfilled.contains (rxRole s mac) = false →
      ∀ c, c = inletClass s mac f.bytes → ∀ n, n = cellsOf f.bytes.length →
      (∀ p, inletRule s mac c n (isControl s f.bytes) = some p → Answers (.inletAdmission mac) s fun t =>
        tgetD t.pkt.arrived mac [] = rest ∧
        tgetD t.pkt.inlet (rxRole s mac) [] = tgetD s.pkt.inlet (rxRole s mac) [] ++
          [{ f with cls := c, ctrl := isControl s f.bytes, pool := p, cells := n }]) ∧
      (inletRule s mac c n (isControl s f.bytes) = none → Answers (.inletAdmission mac) s fun t =>
        tgetD t.pkt.arrived mac [] = rest ∧ t.pkt.inlet = s.pkt.inlet ∧
        rd64 t (Reg.HBX_INLET_DROP mac c) = (rd64 s (Reg.HBX_INLET_DROP mac c) + 1) % 2 ^ 48))) ∧
    (∀ mac, mac < macCount s.variant → tgetD s.pkt.arrived mac [] = [] → Answers (.inletAdmission mac) s fun t => t = s) ∧
    (Answers .thresholdRecompute s fun t => ∀ mac c, mac < macCount s.variant → c < 8 →
      fld t (Reg.HBX_CLASS_THRESH mac c) 17 0 = threshold (inletFree s) (fld s (Reg.HBX_CLASS_CFG mac c) 27 24) ∧
      tgetD (portOf t mac).egrT c 0 = threshold (egressFree s) (fld s (Reg.DKL_EGR_CLASS mac c) 27 24)) ∧
    (∀ (m : Master) (a : Nat) (v : Word), reachesBar0 s m = true →
      (unitOf a = 0x308 → (a = Reg.HBX_BUF_CFG → s.grade.cur = .provision) →
        inletReserved (regWrite s a v) ≤ inletCells (regWrite s a v) →
        egressReserved (regWrite s a v) ≤ egressRegion (regWrite s a v) → Answers (.hbxCfgWrite m a v) s fun t =>
          t = regWrite s a v) ∧
      (unitOf a = 0x308 → (a = Reg.HBX_BUF_CFG → s.grade.cur = .provision) → rd (regWrite s a v) a ≠ rd s a →
        inletCells (regWrite s a v) < inletReserved (regWrite s a v) → Answers (.hbxCfgWrite m a v) s fun t =>
          HardwareSet s t Reg.HBX_CFG_STATUS 0 7 0 ∧
          RegsElsewhere s t [Reg.HBX_CFG_STATUS, Reg.HBX_CFG_STATUS_OCC] ∧ { t with regs := s.regs } = s) ∧
      (isEgressCfg a = true → egressReserved (regWrite s a v) ≤ egressRegion (regWrite s a v) →
        Answers (.egressCfgWrite m a v) s fun t => t = regWrite s a v) ∧
      (isEgressCfg a = true → egressRegion (regWrite s a v) < egressReserved (regWrite s a v) →
        rd (regWrite s a v) a ≠ rd s a → Answers (.egressCfgWrite m a v) s fun t =>
          HardwareSet s t Reg.DKL_EGR_STATUS 0 7 0 ∧
          RegsElsewhere s t [Reg.DKL_EGR_STATUS, Reg.DKL_EGR_STATUS_OCC] ∧ { t with regs := s.regs } = s))


/-! ## Pipes -/

/-- PASS_START, FRAME_RETIRE, SAMPLE_DELIVER, PIPE_FAILURE, PIPE_BIST_DONE, REORDER_EPOCH of a pipe pair, EGRESS_ADMISSION
(R89 to R91, R112, R114, R118, R120 to R127): a pipe starts the frame the slot rule chooses; the oldest started frame leaves
the inlet and its counters count; the oldest sample leaves for its target; a failed pipe's role goes to the spare; a tested
pipe becomes the spare; the change of a pair, or a restore, is taken at its epoch; an admitted frame joins its class queue.
What a transmit pass does to its frame is log entry 105's. -/
def Obligations.PipeEvents : Prop :=
  ∀ s : State, clocked s = true →
    (∀ pipe, pipe < 10 → pipeState s pipe = 3 → roleOf s pipe < 4 → ∀ k, k = inletKey s (roleOf s pipe) →
      ∀ i, chooseStart s pipe (roleOf s pipe) (inletOf s k) = some i → ∀ f, (inletOf s k)[i]? = some f →
      (f.passes ≠ 0 → 256 ≤ (tgetD s.pkt.slots pipe {}).recirc → ∀ w, Answers (.passStart pipe w) s fun t =>
        Counted s t (Reg.PIPE_RECIRC_DROP pipe) 1 ∧ inletOf t k = (inletOf s k).eraseIdx i) ∧
      ((f.passes = 0 ∨ (tgetD s.pkt.slots pipe {}).recirc < 256) →
        (tgetD s.pkt.graphs (passSlot s pipe f) {}).poison = [] → Answers (.passStart pipe none) s fun t =>
        (inletOf t k).length = (inletOf s k).length ∧ ((inletOf t k)[i]?.map fun g => (g.pipe, g.passes, g.mac, g.bytes)) =
          some (some pipe, f.passes + 1, f.mac, f.bytes) ∧
        (∀ j, j ≠ i → (inletOf t k)[j]? = (inletOf s k)[j]?))) ∧
    (∀ pipe w, pipe < 10 → pipeState s pipe = 3 → 4 ≤ roleOf s pipe → roleOf s pipe < 8 →
      ∀ k, k = inletKey s (roleOf s pipe) → ∀ x, chooseTx s pipe k = some x → Answers (.passStart pipe w) s fun t =>
        t.pkt.startSeq = s.pkt.startSeq + 1 ∧ ∀ q, q = queueOf (portOf s x.1) x.2.cls →
        queueOf (portOf t x.1) x.2.cls = modAt q (q.takeWhile fun g => g.passed || g.pass.isSome).length
          fun g => { g with pass := some (pipe, s.pkt.startSeq) }) ∧
    (∀ pipe tr, pipe < 10 → pipeState s pipe = 3 → 4 ≤ roleOf s pipe → roleOf s pipe < 8 →
      ∀ k, k = inletKey s (roleOf s pipe) → ∀ x, x ∈ txPasses s k → x.1 = pipe →
      (∀ y, y ∈ txPasses s k → y = x ∨ x.2 < y.2) → Answers (.frameRetire pipe tr) s fun t =>
        txPasses t k = (txPasses s k).filter fun y => y != x) ∧
    (∀ pipe tr, pipe < 10 → pipeState s pipe = 3 → roleOf s pipe < 4 → ∀ k, k = inletKey s (roleOf s pipe) →
      ∀ f, oldestStarted (inletOf s k) = some f → ∀ v, f.verdict = some v → f.pipe = some pipe →
      ∀ l, l = (inletOf s k).filter (fun g => !(g.pipe.isSome && g.seq == f.seq)) →
      Answers (.frameRetire pipe tr) s fun t =>
        (steersToCore v = true → inletOf t k = l ∨ t = s) ∧
        (v.drop ≠ none ∨ steersToCore v = false → inletOf t k = l ∧
          ∀ c ∈ v.counts, tgetD t.pkt.counters c 0 = tgetD s.pkt.counters c 0 + BitVec.ofNat 64 (v.counts.count c))) ∧
    (s.pkt.samples = [] ∨ flag s Reg.BRK_SAMPLE_CFG 31 = false → Answers .sampleDeliver s fun t => t = s) ∧
    (∀ x rest, s.pkt.samples = x :: rest → flag s Reg.BRK_SAMPLE_CFG 31 = true → flag s Reg.BRK_SAMPLE_CFG 30 = true →
      ∀ d, (resolveCore s (fld s Reg.BRK_SAMPLE_CFG 15 13 * 8 + fld s Reg.BRK_SAMPLE_CFG 12 10)
          (fld s Reg.BRK_SAMPLE_CFG 5 0)).1 = some d →
      (epQueue s d (fld s Reg.BRK_SAMPLE_CFG 5 0)).length < 64 → Answers .sampleDeliver s fun t =>
        t.pkt.samples = rest ∧
        (epQueue t d (fld s Reg.BRK_SAMPLE_CFG 5 0)).length = (epQueue s d (fld s Reg.BRK_SAMPLE_CFG 5 0)).length + 1) ∧
    (∀ pipe cause, pipe < 10 →
      (pipeState s pipe = 2 → Answers (.pipeFailure pipe cause) s fun t => pipeState t pipe = 4 ∧ t.pkt = s.pkt) ∧
      (pipeState s pipe = 3 → ∀ sp, spareOf s (pipeTx pipe) = some sp → Answers (.pipeFailure pipe cause) s fun t =>
        pipeState t pipe = 4 ∧ pipeState t sp = 3 ∧ roleOf t sp = roleOf s pipe ∧ flag t (Reg.PIPE_FAULT pipe) 1 = true ∧
        fld t (Reg.PIPE_GRAPH_SEL sp) 1 0 = fld s (Reg.PIPE_GRAPH_SEL pipe) 1 0 ∧
        ∀ k, k = inletKey s (roleOf s pipe) → Counted s t (Reg.PIPE_REPLAYED sp) (passesOn s k pipe) ∧
        (roleOf s pipe < 4 → ∀ f ∈ inletOf t k, f.pipe ≠ some pipe) ∧ (4 ≤ k → ∀ x ∈ txPasses t k, x.1 ≠ pipe)) ∧
      (pipeState s pipe = 3 → spareOf s (pipeTx pipe) = none → Answers (.pipeFailure pipe cause) s fun t =>
        pipeState t pipe = 4 ∧ flag t (Reg.PIPE_FAULT pipe) 2 = true)) ∧
    (∀ pipe, pipe < 10 → pipeState s pipe = 1 →
      ((∀ r ∈ s.pkt.unfilled, decide (4 ≤ r) ≠ pipeTx pipe) → Answers (.pipeBistDone pipe true) s fun t =>
        pipeState t pipe = 2 ∧ t.pkt = s.pkt) ∧
      (∀ r, s.pkt.unfilled = [r] → decide (4 ≤ r) = pipeTx pipe → r < 8 → Answers (.pipeBistDone pipe true) s fun t =>
        pipeState t pipe = 3 ∧ roleOf t pipe = r ∧ t.pkt.unfilled = []) ∧
      Answers (.pipeBistDone pipe false) s fun t =>
        pipeState t pipe = 4 ∧ flag t (Reg.PIPE_FAULT pipe) 0 = true ∧ t.pkt = s.pkt) ∧
    (∀ k, k < 4 → (∀ f, f ∈ inletOf s (2 * k) ++ inletOf s (2 * k + 1) → f.pipe = none) →
      txPasses s (2 * k) = [] → txPasses s (2 * k + 1) = [] →
      tget s.pkt.moves (2 * k) = none → tget s.pkt.moves (2 * k + 1) = none →
      (tget s.pkt.joins k = some 1 → Answers (.reorderEpoch false k) s fun t =>
        pairState t k = 2 ∧ tget t.pkt.joins k = none ∧ inletOf t (2 * k + 1) = []) ∧
      (tget s.pkt.joins k = some 2 → Answers (.reorderEpoch false k) s fun t =>
        pairState t k = 0 ∧ tget t.pkt.joins k = none)) ∧
    (∀ role, role < 8 → pairWhole s (role / 2) = false → roleBusy s role = false →
      tget s.pkt.moves (role / 2 * 2 + (1 - role % 2)) = none → ∀ p, tget s.pkt.moves role = some p → p < 10 →
      pipeState s p = 2 → Answers (.reorderEpoch false (role / 2)) s fun t =>
        tget t.pkt.moves role = none ∧ pipeState t p = 3 ∧ roleOf t p = role ∧
        ∀ old, holderOf s role = some old → pipeState t old = 2) ∧
    (∀ mac, mac < macCount s.variant → ∀ f, (portOf s mac).waiting = [f] → needsMacsec s mac f = false →
      (f.tagged = true ∨ txStream s f = none) → turnsAway s mac = true → Answers (.egressAdmission mac) s fun t =>
        Counted s t (Reg.TX_LINK_DOWN mac) 1 ∧ (f.host = none → f.ts = none →
          (portOf t mac).waiting = [] ∧ (portOf t mac).queues = (portOf s mac).queues)) ∧
    (∀ mac, mac < macCount s.variant → ∀ f, (portOf s mac).waiting = [f] → needsMacsec s mac f = false →
      (f.tagged = true ∨ txStream s f = none) → portEn s mac = true → flag s (Reg.MAC_PORT_STATUS mac) 1 = false →
      carrierOf s (txRole s mac) ≠ none → f.bytes.length ≤ maxFrame s mac →
      f.bytes.length ≤ maxSdu s mac f.cls → egressRule s mac f.cls (cellsOf f.bytes.length) ≠ none →
      bindsNow s mac f.cls = false → Answers (.egressAdmission mac) s fun t =>
        (portOf t mac).waiting = [] ∧
        ((queueOf (portOf t mac) f.cls).map fun g => g.bytes) = ((queueOf (portOf s mac) f.cls).map fun g => g.bytes) ++ [f.bytes] ∧
        (∀ c, c ≠ f.cls → queueOf (portOf t mac) c = queueOf (portOf s mac) c))

/-- PIPE_JOIN, PIPE_SPLIT, PIPE_BIST, PIPE_RESTORE, PIPE_GRAPH_SEL_WRITE, PIPE_INLET_CLASS_WRITE (R89, R121, R125 to R127). Each clause says what one of these does
where its conditions hold. -/
def Obligations.PipeControl : Prop :=
  (∀ (s : State) (pf : Nat) (buf : ParamBuf) (p : List Byte),
    (Admitted s pf 0x0320 buf p → p.length = 8 →
      ((8 ≤ slot p 0 ∨ slot p 0 % 2 = 1) → Answers (.pipeJoin pf buf) s fun t =>
        SettledWith t pf 4 ∧ { t with chans := s.chans } = s) ∧
      (slot p 0 < 8 → slot p 0 % 2 = 0 → pairState s (slot p 0 / 2) = 0 → pairBroken s (slot p 0 / 2) = false →
        Answers (.pipeJoin pf buf) s fun t =>
          Working t pf ∧ pairState t (slot p 0 / 2) = 1 ∧ tget t.pkt.joins (slot p 0 / 2) = some 1)) ∧
    (Admitted s pf 0x0321 buf p → p.length = 8 → slot p 0 < 8 → slot p 0 % 2 = 0 →
      ¬(shapeOf s (slot p 0 / 2 % 2) = 1 ∧ portEn s (4 * (slot p 0 / 2 % 2)) = true) →
      pairState s (slot p 0 / 2) = 2 → pairBroken s (slot p 0 / 2) = false → Answers (.pipeSplit pf buf) s fun t =>
        Working t pf ∧ pairState t (slot p 0 / 2) = 3 ∧ tget t.pkt.joins (slot p 0 / 2) = some 2) ∧
    (Admitted s pf 0x0322 buf p → p.length = 8 → slot p 0 < 10 →
      (pipeState s (slot p 0) = 4 → Answers (.pipeBist pf buf) s fun t => Working t pf ∧ pipeState t (slot p 0) = 1) ∧
      (pipeState s (slot p 0) ≠ 4 → Answers (.pipeBist pf buf) s fun t =>
        SettledWith t pf 4 ∧ { t with chans := s.chans } = s)) ∧
    (Admitted s pf 0x0323 buf p → p.length = 16 → slot p 0 < 8 → slot p 1 < 10 → pipeState s (slot p 1) = 2 →
      pipeTx (slot p 1) = decide (4 ≤ slot p 0) → carrierOf s (slot p 0) ≠ none → Answers (.pipeRestore pf buf) s fun t =>
        Working t pf ∧ tget t.pkt.moves (slot p 0) = some (slot p 1) ∧ t.regs = s.regs)) ∧
  (∀ (s : State) (m : Master) (v : Word), clocked s = true → reachesBar0 s m = true → ∀ pipe, pipe < 10 →
      (Answers (.pipeGraphSelWrite m pipe v) s fun t =>
        fld t (Reg.PIPE_GRAPH_SEL pipe) 1 0 = bits v 1 0 ∧
        (roleOf s pipe < 8 → pairJoined s (roleOf s pipe / 2) = true →
          ∀ r, r / 2 = roleOf s pipe / 2 → ∀ q, holderOf s r = some q → fld t (Reg.PIPE_GRAPH_SEL q) 1 0 = bits v 1 0)) ∧
      (∀ c, c < 8 →
        (((List.range 8).map fun d => if d = c then bits v 25 16 else fld s (Reg.PIPE_INLET_CLASS pipe d) 25 16).sum ≤ 1000 →
          Answers (.pipeInletClassWrite m pipe c v) s fun t =>
            flag t (Reg.PIPE_INLET_CLASS pipe c) 31 = (bits v 31 31 == 1) ∧
            fld t (Reg.PIPE_INLET_CLASS pipe c) 25 16 = bits v 25 16 ∧ fld t (Reg.PIPE_INLET_CLASS pipe c) 15 0 = bits v 15 0 ∧
            RegsElsewhere s t [Reg.PIPE_INLET_CLASS pipe c] ∧ { t with regs := s.regs } = s) ∧
        (1000 < ((List.range 8).map fun d => if d = c then bits v 25 16 else fld s (Reg.PIPE_INLET_CLASS pipe d) 25 16).sum →
          Answers (.pipeInletClassWrite m pipe c v) s fun t =>
            HardwareSet s t (Reg.PIPE_FAULT pipe) 3 31 24 ∧
            RegsElsewhere s t [Reg.PIPE_FAULT pipe, Reg.PIPE_FAULT_OCC pipe] ∧ { t with regs := s.regs } = s)))


/-! ## The deckle -/

/-- DKL_CLASS_CFG_WRITE, DKL_PORT_CFG_WRITE (R133, R141): on a port that is not enabled the settings are stored; on an enabled
port a write that would change a locked field keeps it and sets CFG_ERR. DKL_LIST_WRITE, DKL_LIST_COMMIT, DKL_LIST_READ (R135,
R136, R138, R140, R516): entries are stored as written; a list that passes its checks is pending with its change time, one
that does not is refused; a read returns the committed list. FRER_STREAM_SET, FRER_STREAM_CLEAR, FRER_STATS (R157, R160),
TRIG_SET, TRIG_CLEAR (R161, R165): the commands of streams and trigger slots. -/
def Obligations.DeckleCommands : Prop :=
  (∀ (s : State) (m : Master) (v : Word), clocked s = true → reachesBar0 s m = true → ∀ mac, mac < macCount s.variant →
    (portEn s mac = false → Answers (.dklPortCfgWrite m mac v) s fun t =>
      flag t (Reg.DKL_PORT_CFG mac) 0 = (bits v 0 0 == 1) ∧ fld t (Reg.DKL_PORT_CFG mac) 9 8 = bits v 9 8) ∧
    (portEn s mac = true → (gateEn s mac ≠ (bits v 0 0 == 1) ∨ portPhc s mac ≠ bits v 9 8) →
      Answers (.dklPortCfgWrite m mac v) s fun t =>
        gateEn t mac = gateEn s mac ∧ portPhc t mac = portPhc s mac ∧
        HardwareSet s t (Reg.DKL_PORT_STATUS mac) 3 7 0 ∧ { t with regs := s.regs } = s) ∧
    (∀ c, c < 8 →
      (portEn s mac = false → Answers (.dklClassCfgWrite m mac c v) s fun t =>
        isSched t mac c = (bits v 31 31 == 1) ∧ flag t (Reg.DKL_CLASS_CFG mac c) 30 = (bits v 30 30 == 1) ∧
        flag t (Reg.DKL_CLASS_CFG mac c) 29 = (bits v 29 29 == 1) ∧
        RegsElsewhere s t [Reg.DKL_CLASS_CFG mac c] ∧ { t with regs := s.regs } = s) ∧
      (portEn s mac = true → isSched s mac c ≠ (bits v 31 31 == 1) → Answers (.dklClassCfgWrite m mac c v) s fun t =>
        isSched t mac c = isSched s mac c ∧ flag t (Reg.DKL_CLASS_CFG mac c) 30 = (bits v 30 30 == 1) ∧ HardwareSet s t (Reg.DKL_PORT_STATUS mac) 3 7 0 ∧ { t with regs := s.regs } = s))) ∧
  (∀ (s : State) (pf : Nat) (buf : ParamBuf) (p : List Byte),
    (Admitted s pf 0x0400 buf p → 24 ≤ p.length → p.length = 24 + 8 * slot p 2 → slot p 0 < macCount s.variant →
      slot p 1 < 4096 → 1 ≤ slot p 2 → slot p 2 ≤ 256 → slot p 1 + slot p 2 ≤ 4096 → Answers (.dklListWrite pf buf) s fun t =>
        SettledWith t pf 0 ∧
        (∀ i, i < slot p 2 → tget (portOf t (slot p 0)).admin (slot p 1 + i) = some (entryOf (slot p (3 + i)))) ∧
        (∀ e, (e < slot p 1 ∨ slot p 1 + slot p 2 ≤ e) →
          tget (portOf t (slot p 0)).admin e = tget (portOf s (slot p 0)).admin e) ∧ t.regs = s.regs) ∧
    (Admitted s pf 0x0401 buf p → p.length = 48 → slot p 0 < macCount s.variant → fullTimeNs (slotBytes p 1 12) < giga →
      leAt p 20 4 = 0 → 2000 ≤ slot p 3 → slot p 3 ≤ 8000000000 → slot p 4 ≤ slot p 3 → 1 ≤ slot p 5 → slot p 5 ≤ 4096 →
      ∀ l, l = { base := fullTime (slotBytes p 1 12), cycle := slot p 3, ext := slot p 4, entries :=
          (List.range (slot p 5)).map fun i => tgetD (portOf s (slot p 0)).admin i { gates := 0, op := 0, interval := 0 } } →
      ((l.entries.all (entryOk s (slot p 0)) = false ∨ windowsOk s (slot p 0) l = false) →
        Answers (.dklListCommit pf buf) s fun t => SettledWith t pf 4 ∧ { t with chans := s.chans } = s) ∧
      (l.entries.all (entryOk s (slot p 0)) = true → windowsOk s (slot p 0) l = true →
        pendClose s (slot p 0) = true → Answers (.dklListCommit pf buf) s fun t =>
          SettledWith t pf stNoResource ∧ { t with chans := s.chans } = s) ∧
      (l.entries.all (entryOk s (slot p 0)) = true → windowsOk s (slot p 0) l = true →
        pendClose s (slot p 0) = false → Answers (.dklListCommit pf buf) s fun t =>
          SettledWith t pf 0 ∧ (portOf t (slot p 0)).pend = some (l, cctOf l (phcNow s (portPhc s (slot p 0)))) ∧
          flag t (Reg.DKL_PORT_STATUS (slot p 0)) 1 = true ∧ RegsElsewhere s t [Reg.DKL_PORT_STATUS (slot p 0)])) ∧
    (Admitted s pf 0x0402 buf p → p.length = 16 → slot p 0 < macCount s.variant → slot p 1 < 2 →
      Answers (.dklListRead pf buf) s fun t =>
        ∃ r, Settled t pf r ∧ r.status = 0 ∧
          (slot p 1 = 1 → ∀ o, (portOf s (slot p 0)).oper = some o → r.out.length = 56 + 8 * o.1.entries.length)) ∧
    (Admitted s pf 0x0408 buf p → p.length = 104 → slot p 0 < 32768 → slot p 1 ≤ 2 → slotBe p 2 < 2 ^ 48 → slot p 3 < 4096 →
      slot p 4 ≤ 1 → (slot p 4 = 1 → slot p 5 < macCount s.variant ∧ (slot p 6 = 0xF ∨ slot p 6 < macCount s.variant)) →
      slot p 7 ≤ 2 → slot p 8 < 2 ^ macCount s.variant → (slot p 7 = 1 → 2 ≤ slot p 9 ∧ slot p 9 ≤ 1024) →
      (slot p 7 ≠ 0 → 1 ≤ slot p 10 ∧ slot p 10 ≤ 65535) → slot p 11 ≤ 1 → slot p 12 ≤ 1 →
      Answers (.frerStreamSet pf buf) s fun t =>
        SettledWith t pf 0 ∧ tget t.time.streams (slot p 0) = some {
          idMode := slot p 1, idMac := slotBe p 2, idVid := slot p 3, gen := slot p 4 == 1, portA := slot p 5
          portB := slot p 6, recov := slot p 7, rxPorts := slot p 8, history := slot p 9, resetMs := slot p 10
          popTag := slot p 11 == 1, taglessPass := slot p 12 == 1 } ∧
        (∀ h, h ≠ slot p 0 → tget t.time.streams h = tget s.time.streams h) ∧ t.regs = s.regs) ∧
    (Admitted s pf 0x0409 buf p → p.length = 8 → slot p 0 < 32768 → tget s.time.streams (slot p 0) ≠ none →
      Answers (.frerStreamClear pf buf) s fun t =>
        SettledWith t pf 0 ∧ tget t.time.streams (slot p 0) = none ∧
        (∀ h, h ≠ slot p 0 → tget t.time.streams h = tget s.time.streams h) ∧ t.regs = s.regs) ∧
    (Admitted s pf 0x040A buf p → p.length = 16 → slot p 0 < 32768 → slot p 1 ≤ 256 → slot p 0 + slot p 1 ≤ 32768 →
      Answers (.frerStats pf buf) s fun t =>
        (∃ r, Settled t pf r ∧ r.status = 0 ∧ r.out.length = 64 * slot p 1) ∧ { t with chans := s.chans } = s) ∧
    (Admitted s pf 0x0410 buf p → p.length = 72 → ∀ x, trigOf s (targetOf s pf) (slot p 0) = some x →
      (slot p 1 = 1 ∧ slot p 2 < 4 ∧ slot p 3 < 2 ^ 48 ∧ (slot p 4 = 0 ∨ (100 ≤ slot p 4 ∧ slot p 4 < 2 ^ 40))) ∨
        (slot p 1 = 2 ∧ slot p 5 < macCount s.variant ∧ slot p 6 < 8 ∧ slot p 7 < 2 ∧
          -2000000 ≤ signed 64 (slot p 8) ∧ signed 64 (slot p 8) ≤ 2000000) → Answers (.trigSet pf buf) s fun t =>
        SettledWith t pf 0 ∧ tget t.time.trigs x = some { tgetD s.time.trigs x {} with
          armed := true, mode := slot p 1, phc := slot p 2, time := slot p 3, period := slot p 4, port := slot p 5
          cls := slot p 6, edge := slot p 7, offset := signed 64 (slot p 8)
          last := phcNow s (portPhc s (slot p 5)) - 1 } ∧
        (∀ y, y ≠ x → tget t.time.trigs y = tget s.time.trigs y) ∧ t.regs = s.regs) ∧
    (Admitted s pf 0x0411 buf p → p.length = 8 → ∀ x, trigOf s (targetOf s pf) (slot p 0) = some x →
      Answers (.trigClear pf buf) s fun t =>
        SettledWith t pf 0 ∧ (tgetD t.time.trigs x {}).armed = false ∧
        (tgetD t.time.trigs x {}).fires = (tgetD s.time.trigs x {}).fires))

/-- LIST_SWAP, CYCLE_START, GATE_ENTRY_START, HOLD_START, WINDOW_CLOSE, WAKE_AHEAD, WINDOW_PUBLISH (R137, R139, R146, R151,
R166, R167, R436): the course of a port's lists. TRIGGER_TIME_FIRE, TRIGGER_EDGE_FIRE, FRER_RESET_TIMEOUT (R159, R162,
R163): what fires with time. -/
def Obligations.DeckleSchedule : Prop :=
  ∀ s : State, clocked s = true →
    (∀ mac, mac < macCount s.variant →
      (∀ n, (portOf s mac).pend = some n → n.2 ≤ phcNow s (portPhc s mac) → Answers (.listSwap mac) s fun t =>
        (portOf t mac).oper = some n ∧ (portOf t mac).pend = none ∧ (portOf t mac).cycStart = n.2 ∧
        flag t (Reg.DKL_PORT_STATUS mac) 1 = false ∧ flag t (Reg.DKL_PORT_STATUS mac) 4 = true) ∧
      ((∀ n, (portOf s mac).pend = some n → phcNow s (portPhc s mac) < n.2) →
        Answers (.listSwap mac) s fun t => t = s) ∧
      (∀ o, (portOf s mac).oper = some o →
        ∀ x, x = (if (portOf s mac).stepped then (portOf s mac).cycStart
          else (portOf s mac).cycStart + o.1.cycle * halfNs) →
        (phcNow s (portPhc s mac) < x ∨ yieldsTo s mac x o.1.ext = true → Answers (.cycleStart mac) s fun t => t = s) ∧
        (x ≤ phcNow s (portPhc s mac) → yieldsTo s mac x o.1.ext = false → Answers (.cycleStart mac) s fun t =>
          (portOf t mac).cycStart = x ∧ (portOf t mac).stepped = false ∧
          fld t (Reg.DKL_OPER_POS mac) 27 16 = 0 ∧
          fld t (Reg.DKL_OPER_POS mac) 15 0 = (fld s (Reg.DKL_OPER_POS mac) 15 0 + 1) % 65536 ∧
          RegsElsewhere s t [Reg.DKL_OPER_POS mac])) ∧
      (∀ e, e < 4096 → ∀ x, (currentStarts s mac)[e]? = some x → x.1 ≤ phcNow s (portPhc s mac) →
        Answers (.gateEntryStart mac e) s fun t =>
          fld t (Reg.DKL_OPER_POS mac) 27 16 = e ∧ RegsElsewhere s t [Reg.DKL_OPER_POS mac] ∧
          (portOf t mac).hold = (if x.2 = 2 then false else (portOf s mac).hold)) ∧
      (gateEn s mac = true → preemptActive s mac = true → (portOf s mac).hold = false →
        (∃ x ∈ holdStarts s mac, x ≤ phcNow s (portPhc s mac) + up16 (holdAdvance s mac) ∧ phcNow s (portPhc s mac) ≤ x) →
        Answers (.holdStart mac) s fun t =>
          (portOf t mac).hold = true ∧ rd64 t (Reg.MM_HOLD mac) = (rd64 s (Reg.MM_HOLD mac) + 1) % 2 ^ 48) ∧
      (∀ c, c < 8 →
        (∀ now, now = phcNow s (portPhc s mac) →
          ∀ late, late = (queueOf (portOf s mac) c).filter (fun f => match f.bound with
            | some w => decide (windowEnd s mac c w ≤ now) | none => false) →
          (portOf s mac).waiting = [] → (∀ f ∈ late, f.host = none ∧ f.ts = none) →
          Answers (.windowClose mac c) s fun t =>
            (∀ r ∈ t.dry.resv, r.mac = mac → r.cls = c → now < r.closes) ∧
            (flag s (Reg.MAC_PORT_STATUS mac) 2 = true → queueOf (portOf t mac) c = queueOf (portOf s mac) c) ∧
            (flag s (Reg.MAC_PORT_STATUS mac) 2 = false →
              queueOf (portOf t mac) c = (queueOf (portOf s mac) c).filter (fun f => !(late.contains f)) ∧
              Counted s t (Reg.TX_GATE_MISSED mac) late.length)) ∧
        (gateEn s mac = true → isSched s mac c = true → ∀ k w, (publishable s mac c)[k]? = some w →
          Answers (.windowPublish mac c k) s fun t =>
            (t.dry.resv.getLast?.map fun r => (r.mac, r.cls, r.opens, r.closes, r.bound, r.held, r.tokens)) =
              some (mac, c, w.opens, w.closes, boundBytes s mac c w, heldBytes s mac c,
                ceilDiv ((boundBytes s mac c w + heldBytes s mac c) * fld s Reg.DRY_E_TX 15 0) 1000000) ∧
            RegsElsewhere s t [Reg.DRY_RESERVED])) ∧
      (s.grade.cur = .standby → Answers (.wakeAhead mac) s fun t => t = s) ∧
      (s.grade.cur ≠ .standby → gateEn s mac = true → (∃ c < 8, flag s (Reg.DKL_CLASS_CFG mac c) 30 = true ∧ ∃ w ∈ windowsOf s mac c,
          phcNow s (portPhc s mac) ≤ w.opens ∧
          w.opens ≤ phcNow s (portPhc s mac) + (fld s (Reg.MAC_QI_STATUS mac) 15 0 * 10 + 100) * oneNs) →
        Answers (.wakeAhead mac) s fun t =>
          flag t (Reg.MAC_QI_STATUS mac) 18 = false ∧ RegsElsewhere s t [Reg.MAC_QI_STATUS mac] ∧ { t with regs := s.regs } = s)) ∧
    (∀ n, n < 4096 → ∀ x, x = tgetD s.time.trigs n {} → x.armed = true →
      (x.mode = 1 → ∀ d, d = shortDiff (shortTime (phcNow s x.phc)) x.time →
        (d < 0 → Answers (.triggerTimeFire n) s fun t => t = s) ∧
        (0 ≤ d → ∀ k, k = d.toNat / x.period → Answers (.triggerTimeFire n) s fun t =>
          tget t.time.trigs n = some (if x.period = 0 then { x with armed := false, fires := (x.fires + 1) % 65536 }
            else { x with time := (x.time + (k + 1) * x.period) % 2 ^ 48, skip := (x.skip + k) % 256
                          fires := (x.fires + 1) % 65536 }) ∧
          (∀ y, y ≠ n → tget t.time.trigs y = tget s.time.trigs y) ∧ (x.owner = none → t.regs = s.regs))) ∧
      (x.mode = 2 → gateEn s x.port = true → (∃ e ∈ edgesNear s x.port ((phcNow s (portPhc s x.port) : Int) - x.offset * halfNs).toNat
          x.cls x.edge, (x.last : Int) < (e : Int) + x.offset * halfNs ∧
          (e : Int) + x.offset * halfNs ≤ phcNow s (portPhc s x.port)) →
        Answers (.triggerEdgeFire n) s fun t =>
          (tgetD t.time.trigs n {}).fires = (x.fires + 1) % 65536 ∧ (tgetD t.time.trigs n {}).armed = true ∧
          x.last < (tgetD t.time.trigs n {}).last ∧ (x.owner = none → t.regs = s.regs))) ∧
    (∀ h, h < 32768 → tget s.time.streams h = none → Answers (.frerResetTimeout h) s fun t => t = s) ∧
    (∀ h, h < 32768 → ∀ x, tget s.time.streams h = some x → x.recov ≠ 0 → Answers (.frerResetTimeout h) s fun t =>
      tget t.time.streams h = some { x with takeAny := true, resets := (x.resets + 1) % 2 ^ 48 } ∧
      (∀ g, g ≠ h → tget t.time.streams g = tget s.time.streams g) ∧ t.regs = s.regs)

/-- FRAME_TX_START, FRAGMENT_RESUME, FRAME_TX_END, TSQ_DEFERRED_WRITE, VERIFY_TIMEOUT, VERIFY_MPACKET_RECEIVE,
RESPOND_MPACKET_RECEIVE (R143, R145, R154, R181, R183): the frame chosen starts; a pre-empted one resumes; a frame that ends is
counted; verification runs its attempts. -/
def Obligations.Transmission : Prop :=
  ∀ s : State, clocked s = true →
    (∀ mac, mac < macCount s.variant →
      (canStart s mac = false → Answers (.frameTxStart mac) s fun t => t = s) ∧
      (canStart s mac = true → s.grade.cur = .sealed → Answers (.frameTxStart mac) s fun t =>
        (∀ c, c < 8 → ∀ f ∈ queueOf (portOf t mac) c, unsealedFrame f = false)) ∧
      (canStart s mac = true → s.grade.cur ≠ .sealed → (portOf s mac).inTx = none → ∀ f,
        choose s mac (classOrder s mac) = some f → f ∈ queueOf (portOf s mac) f.cls →
        (f.bytes.length ≤ maxFrame s mac → Answers (.frameTxStart mac) s fun t =>
          (portOf t mac).inTx = some f ∧ (.frame mac f.bytes) ∈ t.out ∧
          (queueOf (portOf t mac) f.cls).length + 1 = (queueOf (portOf s mac) f.cls).length) ∧
        (maxFrame s mac < f.bytes.length → Answers (.frameTxStart mac) s fun t =>
          (portOf t mac).inTx = none ∧ Counted s t (Reg.BRK_DROP 0x07) 1)) ∧
      (canStart s mac = true → s.grade.cur ≠ .sealed → ∀ g, (portOf s mac).inTx = some g →
        ∀ k, k = { g with sent := bytesOut s mac g } →
        (cuts s mac = true → ∀ f, choose s mac (expressOrder s mac) = some f → f.bytes.length ≤ maxFrame s mac →
          Answers (.frameTxStart mac) s fun t =>
            (portOf t mac).inTx = some f ∧ (portOf t mac).rest = some k ∧ (.fragment mac false) ∈ t.out) ∧
        (cuts s mac = true → choose s mac (expressOrder s mac) = none → (portOf s mac).hold = true →
          Answers (.frameTxStart mac) s fun t => (portOf t mac).inTx = none ∧ (portOf t mac).rest = some k) ∧
        (cuts s mac = false → Answers (.frameTxStart mac) s fun t => t = s)) ∧
      (canStart s mac = true → s.grade.cur ≠ .sealed → ∀ f, (portOf s mac).rest = some f → (portOf s mac).inTx = none →
        (portOf s mac).hold = false → choose s mac (expressOrder s mac) = none → Answers (.fragmentResume mac) s fun t =>
          (portOf t mac).inTx = some f ∧ (portOf t mac).rest = none ∧ t.out = .fragment mac true :: s.out ∧
          rd64 t (Reg.MM_FRAG_TX mac) = (rd64 s (Reg.MM_FRAG_TX mac) + 1) % 2 ^ 48) ∧
      (∀ cap f, (portOf s mac).inTx = some f → Answers (.frameTxEnd mac cap) s fun t =>
        (portOf t mac).inTx = none ∧ Counted s t (Reg.TX_FRAMES_OK mac) 1 ∧
        Counted s t (Reg.TX_OCTETS_OK mac) f.bytes.length) ∧
      (∀ cap, (portOf s mac).inTx = none → Answers (.frameTxEnd mac cap) s fun t => t = s) ∧
      (portEn s mac = false ∨ linkUp s mac = false → Answers (.verifyTimeout mac) s fun t => t = s) ∧
      (portEn s mac = true → linkUp s mac = true → fld s (Reg.DKL_PREEMPT_STATUS mac) 2 0 = 2 →
        ((portOf s mac).attempts < fld s (Reg.DKL_PREEMPT_CFG mac) 3 0 → Answers (.verifyTimeout mac) s fun t =>
          (portOf t mac).attempts = (portOf s mac).attempts + 1 ∧ t.out = .mpacket mac false :: s.out ∧ t.regs = s.regs) ∧
        (fld s (Reg.DKL_PREEMPT_CFG mac) 3 0 ≤ (portOf s mac).attempts → Answers (.verifyTimeout mac) s fun t =>
          fld t (Reg.DKL_PREEMPT_STATUS mac) 2 0 = 4 ∧ flag t (Reg.DKL_PREEMPT_STATUS mac) 9 = true ∧
          { t with regs := s.regs } = s)) ∧
      (fld s (Reg.DKL_PREEMPT_STATUS mac) 2 0 = 2 →
        Answers (.respondMpacketReceive mac) s fun t => fld t (Reg.DKL_PREEMPT_STATUS mac) 2 0 = 3) ∧
      (fld s (Reg.DKL_PREEMPT_STATUS mac) 2 0 ≠ 2 → Answers (.respondMpacketReceive mac) s fun t => t = s) ∧
      (portEn s mac = true → linkUp s mac = true → flag s (Reg.DKL_PREEMPT_CFG mac) 31 = true →
        Answers (.verifyMpacketReceive mac) s fun t => t = emit s (.mpacket mac true))) ∧
    (∀ cq q, tget s.wq.cqs cq = some q → q.kind = 1 → ∀ e rest, q.held = e :: rest → cqFull q = false →
      canRequest s q.fid = true → (s.wq.queues.all fun x => x.2.cq != cq) = true → Answers (.tsqDeferredWrite cq) s fun t =>
        (tget t.wq.cqs cq).map (fun u => u.held) = some rest)


/-! ## Time -/

/-- PHC_RATE, PHC_RATE_REGISTER_COMMIT, PHC_STEP, PHC_STEP_GO, PHC_LOCK, PHC_LOCKED_WRITE, PHC_SNAPSHOT, PHC_READ (R171 to R177,
R514): a rate in range takes effect at the commit tick with the PHC's value there unbroken; a PHC that is not LOCKED steps to
the value given and is LOCKED, one that is LOCKED refuses; clearing LOCKED sets DISCONT; a snapshot stores the time. -/
def Obligations.PhcCommands : Prop :=
  (∀ (s : State) (pf : Nat) (buf : ParamBuf) (p : List Byte),
    (Admitted s pf 0x0419 buf p → p.length = 16 → slot p 0 < 4 →
      (rateOk (signed 64 (slot p 1)) = true → Answers (.phcRate pf buf) s fun t =>
        SettledWith t pf 0 ∧ (phcOf t (slot p 0)).rate = signed 64 (slot p 1) ∧
        phcAt t (slot p 0) (commitC s) = phcAt s (slot p 0) (commitC s) ∧
        (∀ n, n < 4 → n ≠ slot p 0 → phcOf t n = phcOf s n)) ∧
      (rateOk (signed 64 (slot p 1)) = false → Answers (.phcRate pf buf) s fun t =>
        SettledWith t pf 4 ∧ HardwareSet s t (Reg.TIM_PHC_STATUS (slot p 0)) 2 15 8 ∧ t.time = s.time)) ∧
    (Admitted s pf 0x0418 buf p → p.length = 24 → slot p 0 < 4 →
      (locked s (slot p 0) = true → Answers (.phcStep pf buf) s fun t =>
        SettledWith t pf 3 ∧ HardwareSet s t (Reg.TIM_PHC_STATUS (slot p 0)) 0 7 0 ∧ t.time = s.time) ∧
      (locked s (slot p 0) = false → slot p 1 < 2 ^ 48 → slot p 2 < giga → Answers (.phcStep pf buf) s fun t =>
        SettledWith t pf 0 ∧ locked t (slot p 0) = true ∧
        phcAt t (slot p 0) (commitC s) = (slot p 1 * giga + slot p 2) * oneNs ∧
        (phcOf t (slot p 0)).rate = (phcOf s (slot p 0)).rate) ∧
      (locked s (slot p 0) = false → slot p 1 < 2 ^ 48 → giga ≤ slot p 2 → Answers (.phcStep pf buf) s fun t =>
        SettledWith t pf 4 ∧ HardwareSet s t (Reg.TIM_PHC_STATUS (slot p 0)) 0 7 0 ∧ t.time = s.time)) ∧
    (Admitted s pf 0x041A buf p → p.length = 16 → slot p 0 < 4 → slot p 1 < 2 → Answers (.phcLock pf buf) s fun t =>
      SettledWith t pf 0 ∧ locked t (slot p 0) = (slot p 1 == 1) ∧ t.time = s.time ∧
      (locked s (slot p 0) = true → slot p 1 = 0 → HardwareSet s t (Reg.TIM_PHC_STATUS (slot p 0)) 1 31 16)) ∧
    (Admitted s pf 0x041B buf p → p.length = 8 → slot p 0 < 4 → Answers (.phcRead pf buf) s fun t =>
      Settled t pf (ok (timeDetails (phcNow s (slot p 0)) ++
        [BitVec.ofNat 32 (fld s (Reg.TIM_PHC_STATUS_OCC (slot p 0)) 31 16)])) ∧ { t with chans := s.chans } = s)) ∧
  (∀ (s : State) (m : Master) (v : Word), clocked s = true → reachesBar0 s m = true → ∀ n, n < 4 →
    (∀ r, r = signed 40 (wideValue s m (Reg.TIM_PHC_RATE n) v % 2 ^ 40) →
      (rateOk r = true → Answers (.phcRateRegisterCommit m n v) s fun t =>
        (phcOf t n).rate = r ∧ phcAt t n (commitC s) = phcAt s n (commitC s)) ∧
      (rateOk r = false → Answers (.phcRateRegisterCommit m n v) s fun t =>
        HardwareSet s t (Reg.TIM_PHC_STATUS n) 2 15 8 ∧ t.time = s.time)) ∧
    (bits v 0 0 = 1 → locked s n = false → (rd s (Reg.TIM_PHC_STEP_NS n)).toNat < giga → Answers (.phcStepGo m n v) s fun t =>
      locked t n = true ∧ phcAt t n (commitC s) =
        (rd64 s (Reg.TIM_PHC_STEP_SEC n) % 2 ^ 48 * giga + (rd s (Reg.TIM_PHC_STEP_NS n)).toNat) * oneNs) ∧
    (bits v 0 0 = 0 → (Answers (.phcStepGo m n v) s fun t => t = s) ∧ (Answers (.phcSnapshot m n v) s fun t => t = s)) ∧
    (bits v 0 0 = 1 → (locked s n = true ∨ giga ≤ (rd s (Reg.TIM_PHC_STEP_NS n)).toNat) →
      Answers (.phcStepGo m n v) s fun t =>
      HardwareSet s t (Reg.TIM_PHC_STATUS n) 0 7 0 ∧ { t with regs := s.regs } = s) ∧
    (Answers (.phcLockedWrite m n v) s fun t => locked t n = (bits v 0 0 == 1) ∧ { t with regs := s.regs } = s ∧
      (locked s n = true → bits v 0 0 = 0 → HardwareSet s t (Reg.TIM_PHC_STATUS n) 1 31 16)) ∧
    (bits v 0 0 = 1 → Answers (.phcSnapshot m n v) s fun t =>
      rd64 t (Reg.TIM_PHC_SNAP_SEC n) = timeSec (phcNow s n) ∧ (rd t (Reg.TIM_PHC_SNAP_NS n)).toNat = timeNs (phcNow s n) ∧
      (rd t (Reg.TIM_PHC_SNAP_FRAC n)).toNat = timeFrac (phcNow s n) ∧
      rd64 t (Reg.TIM_PHC_SNAP_DT n) = s.deviceTime.toNat ∧ { t with regs := s.regs } = s))

/-- PPS_IN_EDGE, PPS_IN_LOSS, PPS_OUT_PULSE_START, PPS_OUT_PULSE_END (R184, R185): the edge chosen is stamped; a loss is
reported; a pulse starts at a whole second of its PHC and ends. -/
def Obligations.PpsEvents : Prop :=
  ∀ (s : State) (i : Nat), clocked s = true → i < 2 →
    (∀ falling cap, flag s (Reg.TIM_PPS_IN_CFG i) 0 = true → flag s (Reg.TIM_PPS_IN_CFG i) 3 = falling →
      Answers (.ppsInEdge i falling cap) s fun t => ∀ x, x = phcAt s (fld s (Reg.TIM_PPS_IN_CFG i) 2 1) cap →
        rd64 t (Reg.TIM_PPS_IN_TS i) = timeFrac x * 2 ^ 48 + shortTime x ∧ flag t Reg.TIM_PPS_STATUS i = true ∧
        { t with regs := s.regs } = s) ∧
    (∀ falling cap, flag s (Reg.TIM_PPS_IN_CFG i) 0 = false ∨ flag s (Reg.TIM_PPS_IN_CFG i) 3 ≠ falling →
      Answers (.ppsInEdge i falling cap) s fun t => t = s) ∧
    (flag s (Reg.TIM_PPS_IN_CFG i) 0 = false → Answers (.ppsInLoss i) s fun t => t = s) ∧
    (flag s (Reg.TIM_PPS_OUT_CFG i) 31 = false ∨ i ∈ s.time.ppsHigh ∨ ppsCrossed s i = false →
      Answers (.ppsOutPulseStart i) s fun t => t = s) ∧
    (flag s (Reg.TIM_PPS_IN_CFG i) 0 = true → Answers (.ppsInLoss i) s fun t =>
      flag t Reg.TIM_PPS_STATUS (2 + i) = true ∧ { t with regs := s.regs } = s) ∧
    (flag s (Reg.TIM_PPS_OUT_CFG i) 31 = true → i ∉ s.time.ppsHigh →
      ppsCrossed s i = true → Answers (.ppsOutPulseStart i) s fun t =>
        i ∈ t.time.ppsHigh ∧ t.out = .pin (ppsPin i) true :: s.out ∧ t.regs = s.regs) ∧
    (i ∈ s.time.ppsHigh → Answers (.ppsOutPulseEnd i) s fun t =>
      i ∉ t.time.ppsHigh ∧ t.out = .pin (ppsPin i) false :: s.out ∧ t.regs = s.regs)

/-! ## The couch ring -/

/-- RING_FRAME_RECEIVE, RING_BLOCK_LOCK_LOSS, DELAY_MEASURE, SYNC_SEND, EPOCH_SEND, BROADCAST_RETURN_TIMEOUT, RING_INSERT_OPEN,
RING_INSERT_SEND, RING_INSERT_TIMEOUT, RING_INSERT_RETRY, RING_INPUT_LOS, CRG_CFG_WRITE, CRG_MSG_SEND (R188 to R198): a bad frame or
a lost lock raises RX_ERR by 8; a frame for another node goes on with HOPS one more; the node's own messages leave, each at
once where its output is idle; the steps of an insertion. -/
def Obligations.CouchRing : Prop :=
  (∀ s : State, clocked s = true →
    (∀ port, port < 2 →
      (∀ rx : RingRx, rx.good = false → fld s (Reg.CRG_PORT_ERR port) 15 8 < 247 →
        Answers (.ringFrameReceive port rx) s fun t =>
          fld t (Reg.CRG_PORT_ERR port) 15 8 = fld s (Reg.CRG_PORT_ERR port) 15 8 + 8 ∧ ringState t = ringState s ∧ t.out = s.out) ∧
      (∀ rx : RingRx, ringState s = 2 → rx.good = true → rfType rx.bytes = 0xC1 → rfSrc rx.bytes ≠ nodeId s →
        rfDst rx.bytes ≠ nodeId s → rfDst rx.bytes ≠ 0xFF → rfHops rx.bytes < 63 → (ring s).phase ≠ 2 →
        Answers (.ringFrameReceive port rx) s fun t =>
          fld t (Reg.CRG_PORT_ERR port) 15 8 = fld s (Reg.CRG_PORT_ERR port) 15 8 - 1 ∧
          ∀ b, b = rx.bytes.take 3 ++ toLe 1 (rfHops rx.bytes + 1) ++ rx.bytes.drop 4 →
            RingSends s t port false b) ∧
      (fld s (Reg.CRG_PORT_ERR port) 15 8 < 247 → Answers (.ringBlockLockLoss port) s fun t =>
        fld t (Reg.CRG_PORT_ERR port) 15 8 = fld s (Reg.CRG_PORT_ERR port) 15 8 + 8 ∧
        fld t (Reg.CRG_PORT_ERR port) 23 16 = 0 ∧ ringState t = ringState s) ∧
      (∀ t1, ringState s = 2 → Answers (.delayMeasure port t1) s fun t =>
        tget (ring t).reqAt port = some (ringCap s (3 - port) t1).1 ∧ (ring t).seq = ((ring s).seq + 1) % 65536 ∧
        RingSends s t (1 - port) true (ringFrame s 0x42 0xFF 0 [])) ∧
      (∀ q, ringState s ≠ 1 → (ring s).await = [(port, q)] → fld s (Reg.CRG_PORT_ERR port) 7 0 < 247 →
        Answers (.broadcastReturnTimeout port) s fun t =>
          (ring t).await = [] ∧ fld t (Reg.CRG_PORT_ERR port) 7 0 = fld s (Reg.CRG_PORT_ERR port) 7 0 + 8) ∧
      ((ring s).phase = 3 ∨ (ring s).retry = true → port ∈ (ring s).inserts → fld s (Reg.CRG_PORT_ERR port) 7 0 < 247 →
        Answers (.ringInsertTimeout port) s fun t =>
          ringState t = 0 ∧ (ring t).phase = 0 ∧ (ring t).retry = true ∧
          fld t (Reg.CRG_PORT_ERR port) 7 0 = fld s (Reg.CRG_PORT_ERR port) 7 0 + 8) ∧
      ((ringState s = 1 ∨ ringState s = 2) → Answers (.ringInputLos port) s fun t =>
        ringState t = 0 ∧ (ring t).phase = 0 ∧ (ring t).await = [] ∧ (ring t).waiting = [] ∧ RegsElsewhere s t [Reg.CRG_STATUS])) ∧
    (∀ cap, flag s Reg.CRG_CFG 30 = true → ringState s = 2 → (ring s).waiting = [] → Answers (.syncSend cap) s fun t =>
      (ring t).await = (ring s).await ++ [(0, (ring s).seq), (1, (ring s).seq)] ∧
      (ring t).seq = ((ring s).seq + 1) % 65536 ∧ t.regs = s.regs ∧
      (RingIdle s 0 → RingIdle s 1 → t.out.length = s.out.length + 2)) ∧
    (∀ num eff deadline, flag s Reg.CRG_CFG 29 = true → ringState s = 2 → (ring s).waiting = [] →
      (0 < shortDiff deadline (shortTime (phcNow s (ringPhc s))) → Answers (.epochSend num eff deadline) s fun t =>
        (ring t).await = (ring s).await ++ [(0, (ring s).seq), (1, (ring s).seq)] ∧ t.regs = s.regs ∧
        (RingIdle s 0 → RingIdle s 1 → t.out.length = s.out.length + 2)) ∧
      (shortDiff deadline (shortTime (phcNow s (ringPhc s))) ≤ 0 → Answers (.epochSend num eff deadline) s fun t =>
        rd64 t Reg.CRG_EPOCH_LATE = (rd64 s Reg.CRG_EPOCH_LATE + 1) % 2 ^ 48 ∧ { t with regs := s.regs } = s)) ∧
    ((ring s).phase = 1 → ringAllowed s = true → Answers .ringInsertOpen s fun t => (ring t).phase = 2 ∧ t.regs = s.regs) ∧
    ((ring s).phase = 2 → Answers .ringInsertSend s fun t =>
      (ring t).phase = 3 ∧ (ring t).inserts = [0, 1] ∧ (ring t).buffer = [] ∧ (ring t).insertSeq = (ring s).seq ∧
      (ring t).seq = ((ring s).seq + 1) % 65536 ∧ RegsElsewhere s t [Reg.CRG_EPOCH_LATE, Reg.CRG_EPOCH_LATE + 4] ∧
      (ringState s = 1 → (ring s).buffer = [] → RingIdle s 0 → RingIdle s 1 → t.out.length = s.out.length + 2)) ∧
    ((ring s).retry = true → ringAllowed s = true → Answers .ringInsertRetry s fun t =>
      ringState t = 1 ∧ (ring t).phase = 1 ∧ (ring t).retry = false)) ∧
  (∀ (s : State) (m : Master) (v : Word), clocked s = true → reachesBar0 s m = true →
    ((ringState s = 1 ∨ ringState s = 2) → Answers (.crgCfgWrite m v) s fun t =>
      nodeId t = nodeId s ∧ ringPhc t = ringPhc s ∧ flag t Reg.CRG_CFG 31 = flag s Reg.CRG_CFG 31 ∧
      flag t Reg.CRG_CFG 30 = (bits v 30 30 == 1) ∧ flag t Reg.CRG_CFG 29 = (bits v 29 29 == 1) ∧ t.time = s.time) ∧
    ((ringState s = 0 ∨ ringState s = 3) → bits v 31 31 = 1 → flag s Reg.BOOT_STRAPS 4 = true →
      Answers (.crgCfgWrite m v) s fun t =>
        nodeId t = bits v 21 16 ∧ ringState t = 1 ∧ (ring t).phase = 1 ∧ (ring t).dup = false) ∧
    ((ringState s = 0 ∨ ringState s = 3) → bits v 31 31 = 0 → Answers (.crgCfgWrite m v) s fun t =>
      nodeId t = bits v 21 16 ∧ ringState t = 0 ∧ (ring t).dup = false)) ∧
  (∀ (s : State) (pf : Nat) (buf : ParamBuf) (p : List Byte), Admitted s pf 0x0420 buf p → 16 ≤ p.length → p.length ≤ 256 →
    (slot p 0 < 64 ∨ slot p 0 = 0xFF) → slot p 1 < 2 →
    (ringState s = 2 → Answers (.crgMsgSend pf buf) s fun t =>
      SettledWith t pf 0 ∧ (∀ b, b = ringFrame s 0xC1 (slot p 0) 0 (p.drop 16) →
        RingSends s t (slot p 1) true b) ∧ (ring t).seq = ((ring s).seq + 1) % 65536) ∧
    (ringState s ≠ 2 → Answers (.crgMsgSend pf buf) s fun t => SettledWith t pf 4 ∧ { t with chans := s.chans } = s))


/-! ## Wove -/

/-- WOV_CONN_CREATE, WOV_CONN_CLOSE, WOV_CONN_REKEY, WOV_CONN_QUERY, WOV_WIN_OPEN, WOV_WIN_REVOKE (R200, R201, R208 to R210,
R225): the connection is ACTIVE with its parameters and its number is answered; a forced close frees it, a plain one drains
it; a key is installed; windows open under a new key and close. -/
def Obligations.WoveCommands : Prop :=
  ∀ (s : State) (pf : Nat) (buf : ParamBuf) (p : List Byte),
    (Admitted s pf 0x0500 buf p → p.length = 8 * (connAddr p + 17) → slot p 1 < 2 ^ 20 →
      (slot p 0 = 0 ∧ 1 ≤ cslot p 6 ∧ cslot p 6 ≤ 64 ∧
          saExists s (cslot p 12) = true ∧ saExists s (cslot p 13) = true ∧ (saOf s (cslot p 12)).typ = 5 ∧
          (saOf s (cslot p 13)).typ = 5 ∧ (saOf s (cslot p 12)).fid = targetOf s pf ∧
          (saOf s (cslot p 13)).fid = targetOf s pf ∨
        slot p 0 = 1 ∧ cslot p 6 = 1 ∧ roceMtu (cslot p 7) = true ∧
          (s.grade.cur = .sealed → espCovers s (targetOf s pf) (cslot p 12) (cslot p 13) = true)) →
      (slot p 2 = 6 ∨ slot p 2 = 4 ∧ slotBe p 3 < 2 ^ 32 ∧ slotBe p 4 < 2 ^ 32) → cslot p 0 < macCount s.variant →
      slotBe p (connAddr p + 1) < 2 ^ 48 → cslot p 2 ≤ 4094 → cslot p 3 < 8 → cslot p 4 < 64 → cslot p 5 < 65536 →
      256 ≤ cslot p 7 → cslot p 7 ≤ 8192 → cslot p 7 % 64 = 0 →
      cslot p 7 + connOverhead p ≤ maxFrame s (cslot p 0) → queueFree s (targetOf s pf) (cslot p 8) 2 = true →
      queueFree s (targetOf s pf) (cslot p 9) 3 = true → cslot p 10 < 2 ^ 32 → cslot p 11 < 2 ^ 32 →
      cslot p 14 ≤ 1 → cslot p 15 < 65536 → 1 ≤ cslot p 16 → cslot p 16 ≤ 16 → mayTake s (targetOf s pf) 4 1 = true →
      ∀ k, (newConn (cacheRoom s)).1 = some k → k < 2 ^ 20 → ∀ w, w = 2 ^ (if slot p 0 = 1 then 24 else 32) →
      Answers (.wovConnCreate pf buf) s fun t =>
        ∃ r, Settled t pf r ∧ r.details = [BitVec.ofNat 32 k] ∧ r.status = 0 ∧ ((tget t.wove.conns k).map fun c =>
          (c.fid, c.state, c.proto, c.peer, c.mac, c.paths, c.maxPayload, c.nextPsn, c.cum, c.keyTx, c.keyRx)) =
          some (targetOf s pf, 1, slot p 0, slot p 1, cslot p 0, cslot p 6, cslot p 7, cslot p 10 % w, cslot p 11 % w,
            cslot p 12, cslot p 13)) ∧
    (Admitted s pf 0x0501 buf p → p.length = 16 → ∀ c, tget s.wove.conns (slot p 0) = some c → mayName s pf c.fid = true →
      (slot p 1 = 1 ∨ slot p 1 = 0 ∧ c.state = 3 → Answers (.wovConnClose pf buf) s fun t =>
        SettledWith t pf 0 ∧ tget t.wove.conns (slot p 0) = none ∧ slot p 0 ∈ t.wove.freed) ∧
      (slot p 1 = 0 → c.state ≠ 3 → Answers (.wovConnClose pf buf) s fun t =>
        SettledWith t pf 0 ∧ tget t.wove.conns (slot p 0) = some { c with state := 2 })) ∧
    (Admitted s pf 0x0502 buf p → p.length = 32 → ∀ c, tget s.wove.conns (slot p 0) = some c → mayName s pf c.fid = true →
      saExists s (slot p 2) = true → mayName s pf (saOf s (slot p 2)).fid = true → (saOf s (slot p 2)).typ = 5 →
      (saOf s (slot p 2)).fid = c.fid →
      slot p 3 ≤ 1 →
      (slot p 1 = 0 → Answers (.wovConnRekey pf buf) s fun t =>
        SettledWith t pf 0 ∧ ((tget t.wove.conns (slot p 0)).map fun d => (d.nextTx, d.rekeyNow, d.stalled)) =
          some (some (slot p 2), slot p 3 == 1, false)) ∧
      (slot p 1 = 1 → Answers (.wovConnRekey pf buf) s fun t =>
        SettledWith t pf 0 ∧ tget t.wove.conns (slot p 0) = some { c with nextRx := some (slot p 2), dueRx := false })) ∧
    (Admitted s pf 0x0503 buf p → p.length = 16 → slot p 0 ≤ 2 → slot p 1 < 2 ^ 20 → Answers (.wovConnQuery pf buf) s fun t =>
      ∃ r, Settled t pf r ∧ r.status = 0 ∧ r.out.length = 32 * min 128 ((s.wove.conns.filter fun x =>
        x.2.fid == targetOf s pf && connFilter (slot p 0) x.2 && slot p 1 ≤ x.1).length)) ∧
    (Admitted s pf 0x0508 buf p → p.length = 40 → (slotOpt p 0).all (fun x => decide (x < 2 ^ 20)) = true → slot p 1 % 64 = 0 → 64 ≤ slot p 2 →
      slot p 2 ≤ 2 ^ 48 → slot p 1 + slot p 2 ≤ 2 ^ 64 → slot p 3 < 8 →       (slotOpt p 4).all (fun n => (tget s.wove.conns n).any fun k => k.fid == targetOf s pf) = true →
      mayTake s (targetOf s pf) 5 1 = true → ∀ k, (newWindow s).1 = some k → k < 2 ^ 22 →
      Answers (.wovWinOpen pf buf) s fun t =>
        ∃ r, Settled t pf r ∧ r.status = 0 ∧ ((windowOf t (r.details.headD 0).toNat).map fun w =>
          (w.fid, w.pasid, w.base, w.len, w.rights, w.scope)) =
            some (targetOf s pf, slotOpt p 0, slot p 1, slot p 2, slot p 3, slotOpt p 4)) ∧
    (Admitted s pf 0x0509 buf p → p.length = 8 → slot p 0 < 2 ^ 32 → ∀ w, windowOf s (slot p 0) = some w →
      mayName s pf w.fid = true → Answers (.wovWinRevoke pf buf) s fun t =>
        (heldFor s (slot p 0) = false → SettledWith t pf 0) ∧ (heldFor s (slot p 0) = true → Working t pf) ∧
        tget t.wove.windows (slot p 0 / 1024) = none ∧ slot p 0 / 1024 ∈ t.wove.winFreed)

/-- WOVE_PACKET_SEND, WOVE_PACKET_RECEIVE, WOVE_CONTEXT_LOADED, CONN_DRAIN_END, ACK_COAL_TIMEOUT, PATH_SUSPECT_END,
RETRANSMIT_TIMEOUT, RNR_RETRY, RATE_UPDATE (R201, R204, R209, R212 to R222, R229, R230): a packet due again goes first, with
its payload read again, then responses and WRs under the next PSN; a WRITE in its window is received and CUM advances, one
outside its window is NAKed; timers and updates of a connection. How a RoCEv2 packet is laid out is log entry 52's. -/
def Obligations.WoveEvents : Prop :=
  ∀ (s : State) (n : Nat), clocked s = true → n < 2 ^ 20 →
    (flag s Reg.WOV_CFG 0 = true → dataOn s = true → ∀ c, tget (adopt s n).wove.conns n = some c → c.state ≠ 3 →
      c.cached = true → canRequest s c.fid = true → fnHalted s c.fid = false → paced s c = true →
      (∀ x, c.unacked.find? (fun x => x.resend && !x.acked && x.nak.isNone && !x.rnrWait) = some x →
        (x.txCnt ≠ 0xFE → ∀ b, ∀ pl, (reReads x = true → b.length = x.payload.length ∧ pl = .ok b) →
          Answers (.wovePacketSend n pl) s fun t =>
            Counted s t Reg.WOV_RETX 1 ∧
            ((tget t.wove.conns n).map fun d => (d.nextPsn, d.unacked.map fun y => y.txCnt)) =
              some (c.nextPsn, c.unacked.map fun y => if y.psn = x.psn then x.txCnt + 1 else y.txCnt)) ∧
        (x.txCnt = 0xFE → ∀ pl, Answers (.wovePacketSend n pl) s fun t =>
          flag t Reg.WOV_STATUS 0 = true ∧
          ((tget t.wove.conns n).map fun d => (d.state, d.unacked, d.wrs)) = some (3, [], []))) ∧
      (c.unacked.find? (fun x => x.resend && !x.acked && x.nak.isNone && !x.rnrWait) = none → c.stalled = false →
        stallDue c = false → psnDiff c c.nextPsn c.cumTx < 512 →
        (∀ r rest, c.resp = r :: rest →
          (windowOf s r.key = none → ∀ pl, Answers (.wovePacketSend n pl) s fun t =>
            Counted s t Reg.WOV_NAK_TX 1 ∧ ((tget t.wove.conns n).map fun d => d.resp) = some rest) ∧
          (windowOf s r.key ≠ none → ∀ b : List Byte,
            b.length = (if r.op = 0x04 then min c.maxPayload (r.len - r.sent) else 8) →
            Answers (.wovePacketSend n (.ok b)) s fun t =>
              Counted s t Reg.WOV_TX_PKTS 1 ∧
              ((tget t.wove.conns n).map fun d => (d.nextPsn, d.unacked.length)) =
                some (psnNext c c.nextPsn, c.unacked.length + 1))) ∧
        (c.resp = [] → ∀ w, c.wrs.find? (fun w => !w.whole) = some w → qidOf s c.fid c.sq ≠ none →
          ∀ b : List Byte, ∀ pl, (wrNeed c w ≠ 0 → b.length = wrNeed c w ∧ pl = .ok b) →
            Answers (.wovePacketSend n pl) s fun t =>
            Counted s t Reg.WOV_TX_PKTS 1 ∧
            ((tget t.wove.conns n).map fun d => (d.nextPsn, d.unacked.length)) =
              some (psnNext c c.nextPsn, c.unacked.length + 1)))) ∧
    (∀ mac pkt, mac < macCount s.variant → flag s Reg.WOV_CFG 0 = true → dataOn s = true → pkt.hdr.length = 32 →
      whConn pkt.hdr = n →
      (plainPacket s pkt = true ∨ (rideLane s false mac (packetBytes pkt).length).isSome = true) →
      (tget s.wove.conns n = none → Answers (.wovePacketReceive mac pkt) s fun t => Counted s t (Reg.BRK_DROP 0x0D) 1) ∧
      (∀ c, tget s.wove.conns n = some c →
      (c.proto = 1 → flag s Reg.WOV_CFG 1 = true) → c.state ≠ 3 → c.cached = true → fnGone s c.fid = none →
      (c.proto = 1 ∨ saPresent s (rxKey c pkt.hdr) = true) →
      (openPacket s c pkt = none → Answers (.wovePacketReceive mac pkt) s fun t => Counted s t (Reg.BRK_DROP 0x0E) 1) ∧
      (∀ x, openPacket s c pkt = some x → badHeader x.2 pkt.hdr x.1.length = false →
        isCtrl pkt.hdr = false → whOp pkt.hdr ≠ 0x81 → ∀ d, d = psnDiff x.2 (whPsn pkt.hdr) x.2.cum →
        (512 ≤ d → Answers (.wovePacketReceive mac pkt) s fun t => Counted s t Reg.WOV_RX_OUT_OF_WIN 1) ∧
        (d < 0 → Answers (.wovePacketReceive mac pkt) s fun t => Counted s t Reg.WOV_RX_DUP 1) ∧
        (d = 0 → whPsn pkt.hdr = x.2.cum → x.2.recvd = [] → x.2.cum < 2 ^ psnWidth x.2 → (fnOf s x.2.fid).bme = true →
          whOp pkt.hdr = 0x01 → ∀ cum, cum = (x.2.cum + 1) % 2 ^ psnWidth x.2 →
          (∀ k, windowRefusal s n x.2 (whKey pkt.hdr) (whOff pkt.hdr) x.1.length 1 = some k →
            Answers (.wovePacketReceive mac pkt) s fun t =>
              Counted s t Reg.WOV_RX_PKTS 1 ∧ Counted s t Reg.WOV_NAK_TX 1 ∧
              ((tget t.wove.conns n).map fun d => d.cum) = some cum) ∧
          (windowRefusal s n x.2 (whKey pkt.hdr) (whOff pkt.hdr) x.1.length 1 = none →
            (x.1 = [] ∨ pkt.translated = true) → Answers (.wovePacketReceive mac pkt) s fun t =>
              Counted s t Reg.WOV_RX_PKTS 1 ∧ ((tget t.wove.conns n).map fun d => d.cum) = some cum))))) ∧
    (∀ c, tget s.wove.conns n = some c →
      (c.cached = false → (s.wove.waiting.filter fun x => whConn x.2.hdr == n) = [] →
        ((s.wove.conns.filter fun x => x.2.cached).length < 32768 → Answers (.woveContextLoaded n true) s fun t =>
          tget t.wove.conns n = some { c with cached := true, missed := false } ∧ t.regs = s.regs) ∧
        (Answers (.woveContextLoaded n false) s fun t =>
          tget t.wove.conns n = some { c with missed := false } ∧ flag t (Reg.HBM_STATUS 0) 1 = true)) ∧
      (c.cached = true → ∀ good, Answers (.woveContextLoaded n good) s fun t => t = s) ∧
      (c.state = 2 → openWrs s c = [] → Answers (.connDrainEnd n) s fun t =>
        tget t.wove.conns n = none ∧ n ∈ t.wove.freed) ∧
      (0 < c.sinceAck → c.state ≠ 3 → c.stalled = false → stallDue c = false → Answers (.ackCoalTimeout n) s fun t =>
        ((tget t.wove.conns n).map fun d => (d.sinceAck, d.rcvCount, d.ceCount, d.ctrlSeq)) =
          some (0, 0, 0, (c.ctrlSeq + 1) % 2 ^ 32)) ∧
      (∀ path, Answers (.pathSuspectEnd n path) s fun t =>
        tget t.wove.conns n = some { c with suspect := c.suspect.filter (· != path) } ∧ t.regs = s.regs) ∧
      (∀ psn, Answers (.rnrRetry n psn) s fun t =>
        tget t.wove.conns n = some { c with unacked := c.unacked.map fun x =>
          if x.psn = psn && x.rnrWait then { x with resend := true, rnrWait := false } else x } ∧ t.regs = s.regs) ∧
      ((c.state = 3 ∨ (c.unacked.any fun x => !x.acked && x.nak.isNone) = false) →
        Answers (.retransmitTimeout n) s fun t => t = s) ∧
      (c.state ≠ 3 → (c.unacked.any fun x => !x.acked && x.nak.isNone) = true →
        (c.expiries + 1 < fld s Reg.WOV_TIMERS 7 0 → Answers (.retransmitTimeout n) s fun t =>
          Counted s t Reg.WOV_RTO_EXPIRED 1 ∧
          ((tget t.wove.conns n).map fun d => (d.state, d.expiries)) = some (c.state, c.expiries + 1)) ∧
        (fld s Reg.WOV_TIMERS 7 0 ≤ c.expiries + 1 → Answers (.retransmitTimeout n) s fun t =>
          flag t Reg.WOV_STATUS 0 = true ∧
          ((tget t.wove.conns n).map fun d => (d.state, d.unacked, d.wrs)) = some (3, [], []))) ∧
      (rcActive s c = false → Answers (.rateUpdate n) s fun t => t = s) ∧
      (rcActive s c = true → Answers (.rateUpdate n) s fun t => t.regs = s.regs ∧
        ∀ d, tget t.wove.conns n = some d → (d.n, d.m, d.gain, d.step) =
            (0, 0, fld s Reg.WOV_RC_CFG 23 20, fld s Reg.WOV_RC_CFG 15 0) ∧
          (c.n = 0 → (d.rate, d.k, d.est) = (c.rate, c.k, c.est)) ∧
          (0 < c.n → d.est = c.est + ((c.m : Rat) / (c.n : Rat) - c.est) / ((2 ^ c.gain : Nat) : Rat)) ∧
          (0 < c.n → c.m = 0 → d.k = c.k + 1 ∧
            d.rate = min (rMax s c : Rat) (c.rate + (c.step : Rat) * ((min (c.k + 1) 8 : Nat) : Rat))) ∧
          (0 < c.n → 0 < c.m → d.k = 0 ∧ d.rate = min (rMax s c : Rat)
            (max (fld s Reg.WOV_RC_LIMITS 31 16 : Rat) (c.rate * (1 - d.est / 2))))))


/-! ## Cipher lanes and transform engines -/

/-- CPH_SA_WRITE, CPH_SA_CLEAR, CPH_SA_QUERY, CPH_LANE_JOIN, CPH_LANE_SPLIT, CPH_LANE_BIST, CPH_LANE_RESTORE,
CPH_PORT_CFG_WRITE, CPH_PAGE_SA_SEL_WRITE (R240 to R245, R259, R262, R267). Each clause says what one of these does
where its conditions hold. -/
def Obligations.CipherCommands : Prop :=
  (∀ (s : State) (pf : Nat) (buf : ParamBuf) (p : List Byte),
    (Admitted s pf 0x0600 buf p → p.length = 152 → slot p 0 < 2 ^ 22 →
      (saExists s (slot p 0) = true → (saOf s (slot p 0)).fid = targetOf s pf) →
      (slot p 1 = 1 ∨ slot p 1 = 0 ∧ s.grade.cur ≠ .sealed) → slot p 2 ≤ 1 →
      ∀ r, (if slot p 1 = 0 then some (p.drop 24) else unwrapRecord s (p.drop 24)) = some r →
      saGood (saOfRecord r) = true → (saOfRecord r).fid = targetOf s pf → (saOf s (slot p 0)).writeCnt < 2 ^ 44 - 1 →
      (saExists s (slot p 0) = true ∨ mayTake s (targetOf s pf) 6 1 = true) → Answers (.cphSaWrite pf buf) s fun t =>
        SettledWith t pf 0 ∧ ∀ a, a = saOf t (slot p 0) →
          a.valid = true ∧ a.typ = (saOfRecord r).typ ∧ a.alg = (saOfRecord r).alg ∧ a.key = (saOfRecord r).key ∧
          a.salt = (saOfRecord r).salt ∧ a.hard = (saOfRecord r).hard ∧ a.writeCnt = (saOf s (slot p 0)).writeCnt + 1) ∧
    (Admitted s pf 0x0601 buf p → p.length = 8 → saExists s (slot p 0) = true → (saOf s (slot p 0)).fid = targetOf s pf →
      (saOf s (slot p 0)).writeCnt < 2 ^ 44 - 1 → Answers (.cphSaClear pf buf) s fun t =>
        SettledWith t pf 0 ∧ (saOf t (slot p 0)).valid = false ∧
        (saOf t (slot p 0)).writeCnt = (saOf s (slot p 0)).writeCnt + 1) ∧
    (Admitted s pf 0x0602 buf p → p.length = 8 → saExists s (slot p 0) = true → (saOf s (slot p 0)).fid = targetOf s pf →
      Answers (.cphSaQuery pf buf) s fun t =>
        Settled t pf (ok [] (saView (saOf s (slot p 0)))) ∧ { t with chans := s.chans } = s) ∧
    (Admitted s pf 0x0608 buf p → p.length = 8 → slot p 0 < 8 → slot p 0 % 2 = 0 → lanePairState s (slot p 0 / 2) = 0 →
      lanePairBroken s (slot p 0 / 2) = false → Answers (.cphLaneJoin pf buf) s fun t =>
        Working t pf ∧ lanePairState t (slot p 0 / 2) = 1 ∧ tget t.cph.joins (slot p 0 / 2) = some 1) ∧
    (Admitted s pf 0x0609 buf p → p.length = 8 → slot p 0 < 8 → slot p 0 % 2 = 0 → lanePairState s (slot p 0 / 2) = 2 →
      ¬(shapeOf s (slot p 0 / 2 % 2) = 1 ∧ flag s (Reg.CPH_PORT_CFG (4 * (slot p 0 / 2 % 2))) 31 = true) →
      lanePairBroken s (slot p 0 / 2) = false → Answers (.cphLaneSplit pf buf) s fun t =>
        Working t pf ∧ lanePairState t (slot p 0 / 2) = 3 ∧ tget t.cph.joins (slot p 0 / 2) = some 2) ∧
    (Admitted s pf 0x060A buf p → p.length = 8 → slot p 0 < 9 →
      (laneState s (slot p 0) = 4 → Answers (.cphLaneBist pf buf) s fun t => Working t pf ∧ laneState t (slot p 0) = 1) ∧
      (laneState s (slot p 0) ≠ 4 → Answers (.cphLaneBist pf buf) s fun t =>
        SettledWith t pf 4 ∧ { t with chans := s.chans } = s)) ∧
    (Admitted s pf 0x060B buf p → p.length = 16 → slot p 0 < 8 → slot p 1 < 9 → laneState s (slot p 1) = 2 →
      laneCarrier s (slot p 0) ≠ none → Answers (.cphLaneRestore pf buf) s fun t =>
        Working t pf ∧ tget t.cph.moves (slot p 0) = some (slot p 1) ∧ t.regs = s.regs)) ∧
  (∀ (s : State) (m : Master) (v : Word), clocked s = true →
    (reachesBar0 s m = true → ∀ mac, mac < macCount s.variant →
      ((bits v 31 31 = 0 ∨ shapeOf s (groupOf mac) ≠ 1) → Answers (.cphPortCfgWrite m mac v) s fun t =>
        flag t (Reg.CPH_PORT_CFG mac) 31 = (bits v 31 31 == 1) ∧ flag t (Reg.CPH_PORT_CFG mac) 30 = (bits v 30 30 == 1) ∧
        fld t (Reg.CPH_PORT_CFG mac) 21 0 = bits v 21 0 ∧
        RegsElsewhere s t [Reg.CPH_PORT_CFG mac] ∧ { t with regs := s.regs } = s) ∧
      (bits v 31 31 = 1 → shapeOf s (groupOf mac) = 1 → servesPort s mac = true → lanePairJoined s (groupOf mac) = false →
        Answers (.cphPortCfgWrite m mac v) s fun t =>
          HardwareSet s t Reg.CPH_STATUS 0 7 0 ∧ RegsElsewhere s t [Reg.CPH_STATUS, Reg.CPH_STATUS_OCC] ∧
          { t with regs := s.regs } = s)) ∧
    (∀ fid k, fid < 4096 → pageReach s fid = true → ∀ g, cphPage s fid k = some g → Answers (.cphPageSaSelWrite fid k v) s fun t =>
      tget t.cph.pageSel g = some (v &&& 0x3FFFFF) ∧ (∀ h, h ≠ g → tget t.cph.pageSel h = tget s.cph.pageSel h) ∧
      t.regs = s.regs))

/-- SA_FETCH_DONE, SA_WRITEBACK, INLINE_CIPHER_FRAME, LOOKASIDE_JOB_ASSIGN, LOOKASIDE_JOB_DONE, TRANSFORM_JOB_DONE, KAT_RUN,
LANE_FAILURE, LANE_BIST_DONE, REORDER_EPOCH of a lane pair (R238 to R241, R245, R252, R257, R259 to R264). Each clause says what one of these does
where its conditions hold. -/
def Obligations.CipherEvents : Prop :=
  ∀ s : State, clocked s = true →
    (∀ n, n < 2 ^ 22 → (saOf s n).valid = true → n ∉ s.cph.cached →
      (s.cph.cached.length < 65536 → recordOpens s n = true → Answers (.saFetchDone n true false) s fun t => n ∈ t.cph.cached ∧ n ∉ t.cph.bad) ∧
      Answers (.saFetchDone n false false) s fun t => n ∈ t.cph.bad ∧ HardwareSet s t Reg.CPH_STATUS 2 15 8) ∧
    (∀ n, n < 2 ^ 22 → n ∈ s.cph.changed → (saOf s n).writeCnt < 2 ^ 44 - 1 → Answers (.saWriteback n) s fun t =>
      n ∉ t.cph.changed ∧ saOf t n = { saOf s n with writeCnt := (saOf s n).writeCnt + 1 } ∧ t.regs = s.regs) ∧
    (∀ lane f mac, lane < 9 → laneState s lane = 3 → s.cph.frames = [f] → f.lane = some lane → f.work = .macsecTx mac →
      f.tx ≠ none → Answers (.inlineCipherFrame lane) s fun t =>
        t.cph.frames = [] ∧ rd64 t (Reg.LANE_BYTES lane) = (rd64 s (Reg.LANE_BYTES lane) + f.bytes.length) % 2 ^ 48 ∧
        (saOf t f.sa).pktsOk = ((saOf s f.sa).pktsOk + 1) % 2 ^ 64 ∧
        ((portOf t mac).waiting.getLast?.map fun y => y.secured) = some true) ∧
    (∀ n j, tget s.cph.jobs n = some j →
      (isTransform j.block = false → j.lane = none → (jobKeyOk s j = true → jobSa j.block ∈ s.cph.cached) →
        ∀ l, leastLoaded (jobLoad s false) (jobLanes s) = some l → Answers (.lookasideJobAssign n) s fun t =>
          ((tget t.cph.jobs n).map fun k => (k.lane, k.qid, k.idx, k.block)) = some (some l, j.qid, j.idx, j.block)) ∧
      (∀ x again y, isTransform j.block = false → ∀ l, j.lane = some l → l < 9 → jobOpen s j = true →
        Answers (.lookasideJobDone n ⟨.ok x, again⟩ (.ok y)) s fun t =>
          rd64 t (Reg.LANE_JOBS l) = (rd64 s (Reg.LANE_JOBS l) + 1) % 2 ^ 48 ∧
          rd64 t (Reg.LANE_BYTES l) = (rd64 s (Reg.LANE_BYTES l) + jobBytes j.block) % 2 ^ 48 ∧
          (tgetD t.cph.pageCnt j.fid (0, 0, 0, 0)).1 = ((tgetD s.cph.pageCnt j.fid (0, 0, 0, 0)).1 + 1) % 2 ^ 48) ∧
      (∀ x d, isTransform j.block = true → ∀ e, j.lane = some e → e < 4 → jobOpen s j = true → jobCode j.block = 0x10 →
        4 ≤ jobDstLen j.block → Answers (.transformJobDone n (.ok x) (.ok d)) s fun t =>
          rd64 t (Reg.XFM_JOBS e) = (rd64 s (Reg.XFM_JOBS e) + 1) % 2 ^ 48 ∧
          rd64 t (Reg.XFM_IN_BYTES e) = (rd64 s (Reg.XFM_IN_BYTES e) + jobSrcLen j.block) % 2 ^ 48 ∧
          rd64 t (Reg.XFM_OUT_BYTES e) = (rd64 s (Reg.XFM_OUT_BYTES e) + 4) % 2 ^ 48)) ∧
    (∀ lane, lane < 9 →
      (Answers (.katRun lane true) s fun t => t = s) ∧
      (laneState s lane = 3 → Answers (.katRun lane false) s fun t =>
        laneState t lane = 4 ∧ flag t (Reg.CPH_LANE_FAULT lane) 3 = true) ∧
      (∀ cause, lane < 8 → laneState s lane = 3 → laneRoleOf s lane < 8 → laneState s 8 = 2 →
        Answers (.laneFailure lane cause) s fun t =>
          laneState t lane = 4 ∧ laneState t 8 = 3 ∧ laneRoleOf t 8 = laneRoleOf s lane ∧
          flag t (Reg.CPH_LANE_FAULT lane) 1 = true ∧ (∀ f ∈ t.cph.frames, f.lane ≠ some lane)) ∧
      (laneState s lane = 1 →
        (s.cph.unfilled = [] → Answers (.laneBistDone lane true) s fun t => laneState t lane = 2 ∧ t.cph = s.cph) ∧
        (∀ r rest, s.cph.unfilled = r :: rest → r < 8 → Answers (.laneBistDone lane true) s fun t =>
          laneState t lane = 3 ∧ laneRoleOf t lane = r ∧ t.cph.unfilled = rest) ∧
        Answers (.laneBistDone lane false) s fun t =>
          laneState t lane = 4 ∧ flag t (Reg.CPH_LANE_FAULT lane) 0 = true ∧ t.cph = s.cph)) ∧
    (∀ k, k < 4 → (∀ f ∈ s.cph.frames, f.lane = none) → tget s.cph.moves (2 * k) = none → tget s.cph.moves (2 * k + 1) = none →
      (tget s.cph.joins k = some 1 → Answers (.reorderEpoch true k) s fun t =>
        lanePairState t k = 2 ∧ tget t.cph.joins k = none) ∧
      (tget s.cph.joins k = some 2 → Answers (.reorderEpoch true k) s fun t =>
        lanePairState t k = 0 ∧ tget t.cph.joins k = none))


/-! ## Host link, functions and isolation -/

/-- HOST_LINK_UP, HOST_RETURN, ASPM_L1_REQUEST, L0P_NARROW, L0P_WIDEN, LINK_WAKE_LEAD, CONFIG_READY, PERST_ASSERT, PERST_DEASSERT,
HOT_RESET, HOST_LOST (R268, R277 to R282, R293, R295): training, power states and resets of a host link. -/
def Obligations.HostLinkEvents : Prop :=
  ∀ s : State, clocked s = true →
    (∀ k, k < 2 → linkOk s k = true →
      (s.host.perstLow = false → (linkRec s k).up = false → ∀ speed width flit, speed < 7 → widthOk s width = true →
        Answers (.hostLinkUp k speed width flit) s fun t =>
          linkRec t k = { pm := 0, width := width, active := width, flit := flit || decide (5 ≤ speed), up := true, speed := speed } ∧
          (∀ j, j ≠ k → linkRec t j = linkRec s j)) ∧
      (s.host.perstLow = false → (linkRec s k).lost = true → Answers (.hostReturn k) s fun t =>
        (linkRec t k).up = true ∧ (linkRec t k).lost = false ∧ flag t (Reg.HIF_EVENT k) 1 = true) ∧
      ((linkRec s k).up = true → (linkRec s k).pm ≤ 1 → s.grade.cur ≠ .deterministic → ∀ a, a = (fnOf s (fnZero k)).aspm →
        ∀ idle,
        (a.l1 = true ∧ fld s (Reg.HIF_LINK_PM k) 17 8 ≤ idle ∨ s.grade.cur = .standby ∧ a.l12 = true) →
        Answers (.aspmL1Request k idle) s fun t =>
          linkRec t k = { linkRec s k with pm := if a.l12 then 4 else if a.l11 then 3 else 2 } ∧ t.regs = s.regs ∧
          t.out = .pcie "LTR" (fnZero k) (ltrOf s k) :: s.out) ∧
      ((linkRec s k).up = true → (linkRec s k).pm ≤ 1 → s.grade.cur ≠ .deterministic → flag s (Reg.HIF_LINK_PM k) 0 = true →
        (linkRec s k).flit = true → ∀ w, narrower s k = some w → Answers (.l0pNarrow k) s fun t =>
          linkRec t k = { linkRec s k with pm := 1, active := w } ∧ t.regs = s.regs) ∧
      ((linkRec s k).up = true → 1 ≤ (linkRec s k).pm → (linkRec s k).pm ≤ 4 →
        ((linkRec s k).pm = 1 → Answers (.l0pWiden k) s fun t =>
          linkRec t k = { linkRec s k with pm := 0, active := (linkRec s k).width } ∧ t.regs = s.regs) ∧
        (wakeWanted s k = true → Answers (.linkWakeLead k) s fun t =>
          linkRec t k = { linkRec s k with pm := 0, active := (linkRec s k).width } ∧ t.regs = s.regs)) ∧
      ((linkRec s k).up = true → (linkRec s k).ready = false → Answers (.configReady k) s fun t =>
        linkRec t k = { linkRec s k with ready := true } ∧ t.regs = s.regs) ∧
      ((linkRec s k).up = true → Answers (.hotReset k) s fun t =>
        (linkRec t k).up = false ∧ (linkRec t k).pm = 5 ∧ flag t (Reg.HIF_EVENT k) 2 = true ∧
        (∀ p, p < 8 → p ∈ linkPfs s k → (fnOf t p).bme = false ∧ (fnOf t p).memEn = false) ∧
        (k = 0 → ∀ q ∈ t.wq.queues, q.2.fid ≠ 0)) ∧
      ((linkRec s k).up = true → s.host.perstLow = false → Answers (.hostLost k) s fun t =>
        (linkRec t k).up = false ∧ (linkRec t k).lost = true ∧ flag t (Reg.HIF_EVENT k) 0 = true ∧
        (∀ p, p < 8 → p ∈ linkPfs s k → (fnOf t p).bme = false))) ∧
    (s.host.perstLow = false → Answers .perstAssert s fun t =>
      t.host.perstLow = true ∧ flag t Reg.GLB_PIN_LEVEL 5 = false ∧ (∀ k, k < 2 → (linkRec t k).up = false) ∧
      (∀ p, p < 8 → (fnOf t p).bme = false ∧ (fnOf t p).memEn = false)) ∧
    (s.host.perstLow = true → Answers .perstDeassert s fun t =>
      t.host.perstLow = false ∧ flag t Reg.GLB_PIN_LEVEL 5 = true ∧ (∀ k, k < 2 → (linkRec t k).pm = 5) ∧
      RegsElsewhere s t [Reg.GLB_PIN_LEVEL])

/-- D3HOT_ENTRY, D0_RETURN, FLR_INITIATE, FLR_COMPLETE, BME_CLEAR, BME_SET, VF_REMOVE, HOST_COMPLETION_RECEIVE, QUARANTINE_EXPIRY,
COMPLETION_TIMEOUT, ATS_INVALIDATION, ATS_INVALIDATION_COMPLETE, PAGE_RESPONSE_RECEIVE, PRI_TIMEOUT (R281, R286 to R292, R308
to R310, R515). Each clause says what one of these does
where its conditions hold. -/
def Obligations.FunctionEvents : Prop :=
  ∀ (s : State) (fid : Nat), clocked s = true → fid < 4096 →
    (cfgReach s fid = true →
      (Answers (.d3hotEntry fid) s fun t => (fnOf t fid).d3hot = true) ∧
      (Answers (.d0Return fid) s fun t => (fnOf t fid).d3hot = false) ∧
      ((fnOf s fid).bme = true → (fnOf s fid).d3hot = false → Answers (.bmeClear fid) s fun t =>
        (fnOf t fid).bme = false ∧ (fnOf t fid).masterDisabled = true ∧
        (∀ q ∈ t.wq.queues, q.2.fid = fid → q.2.state = 3 ∨ q.2.state = 4 ∨ q.2.state = 6)) ∧
      ((fnOf s fid).bme = false → (fnOf s fid).d3hot = false → Answers (.bmeSet fid) s fun t =>
        (fnOf t fid).bme = true ∧ (fnOf t fid).masterDisabled = false) ∧
      Answers (.flrInitiate fid) s fun t =>
        (fnOf t fid).flr = true ∧ (fnOf t fid).bme = false ∧ (fnOf t fid).memEn = false ∧
        (∀ q ∈ t.wq.queues, q.2.fid ≠ fid) ∧ (∀ e ∈ t.host.dtu, e.fid ≠ fid) ∧ (.pcie "FLR_ACKNOWLEDGED" fid 0) ∈ t.out) ∧
    ((fnOf s fid).flr = true → Answers (.flrComplete fid) s fun t =>
      fnOf t fid = { fnOf s fid with flr := false } ∧ t.regs = s.regs) ∧
    (8 ≤ fid → fnPresent s fid = true → Answers (.vfRemove fid) s fun t =>
      fnPresent t fid = false ∧ (∀ q ∈ t.wq.queues, q.2.fid ≠ fid)) ∧
    (∀ tag, tag ∈ (fnOf s fid).quar →
      (∀ k c, k < 2 → (linkRec s k).lost = false → s.host.perstLow = false → Answers (.hostCompletionReceive k fid tag c) s fun t =>
        tag ∉ (fnOf t fid).quar ∧ rd64 t Reg.HIF_CPL_LATE = (rd64 s Reg.HIF_CPL_LATE + 1) % 2 ^ 48) ∧
      Answers (.quarantineExpiry fid tag) s fun t =>
        tag ∉ (fnOf t fid).quar ∧ rd64 t Reg.HIF_QUAR_EXPIRED = (rd64 s Reg.HIF_QUAR_EXPIRED + 1) % 2 ^ 48 ∧
        RegsElsewhere s t [Reg.HIF_QUAR_EXPIRED, Reg.HIF_QUAR_EXPIRED + 4]) ∧
    (∀ tag x, tget (fnOf s fid).tags tag = some x → tag ∉ (fnOf s fid).quar → (x.discard = true ∨ x.qid = none) →
      (∀ b : List Byte, (linkRec s x.link).lost = false → s.host.perstLow = false → x.link < 2 →
        Answers (.hostCompletionReceive x.link fid tag (.ok b)) s fun t =>
          tget (fnOf t fid).tags tag = none ∧ t.regs = s.regs) ∧
      Answers (.completionTimeout fid tag) s fun t => tget (fnOf t fid).tags tag = none) ∧
    (fnPresent s fid = true → (fnOf s fid).ats = true → ∀ pasid iova len, Answers (.atsInvalidation fid pasid iova len) s fun t =>
      (∀ e ∈ t.host.dtu, ¬(e.fid = fid ∧ e.pasid = pasid ∧ rangesMeet e.iova e.size iova len = true)) ∧
      (fnOf t fid).invals = (fnOf s fid).invals ++ [(fnOf s fid).tags.map Prod.fst] ∧
      rd64 t Reg.DTU_INVAL = (rd64 s Reg.DTU_INVAL + 1) % 2 ^ 48) ∧
    (∀ w rest, (fnOf s fid).invals = w :: rest → (∀ x ∈ w, tget (fnOf s fid).tags x = none) →
      Answers (.atsInvalidationComplete fid) s fun t =>
        (fnOf t fid).invals = rest ∧ t.out = .pcie "ATS_INVALIDATION_COMPLETION" fid 0 :: s.out ∧ t.regs = s.regs) ∧
    (∀ req r, pageReqOf s fid req = some r → r.pkt = none →
      (Answers (.pageResponseReceive fid req true) s fun t => ∀ x ∈ (fnOf t fid).pageReqs, x.req ≠ req) ∧
      (Answers (.pageResponseReceive fid req false) s fun t =>
        rd64 t Reg.DTU_PRI_FAIL = (rd64 s Reg.DTU_PRI_FAIL + 1) % 2 ^ 48) ∧
      Answers (.priTimeout fid req) s fun t =>
        rd64 t Reg.DTU_PRI_FAIL = (rd64 s Reg.DTU_PRI_FAIL + 1) % 2 ^ 48)

/-- VF_MBX_SEND, VF_MBX_ACK, PF_MBX_ACK_REQ, PF_MBX_SEND_REPLY (R302 to R304); FN_QUOTA_SET, FN_QUOTA_QUERY, FN_RES_ASSIGN,
FN_RES_RELEASE (R317 to R320, R516); FN_DIRTY_START, FN_DIRTY_SWAP, FN_DIRTY_STOP, DIRTY_WORD_WRITE, DIRTY_WRITE_FAIL (R312 to
R316). Each clause says what one of these does
where its conditions hold. -/
def Obligations.FunctionCommands : Prop :=
  (∀ (s : State) (fid : Nat), clocked s = true → pageReach s fid = true →
    (8 ≤ fid → fid < 4096 →
      ((fnOf s fid).txBusy = false → Answers (.vfMbxSend fid) s fun t =>
        (fnOf t fid).txBusy = true ∧ (fnOf t fid).mbxPend = true ∧ t.regs = s.regs) ∧
      Answers (.vfMbxAck fid) s fun t => fnOf t fid = { fnOf s fid with rxFull := false } ∧ t.regs = s.regs) ∧
    (fid < 8 → ∀ v, mbxVf s fid = some v →
      (Answers (.pfMbxAckReq fid) s fun t =>
        (fnOf t v).txBusy = false ∧ (fnOf t v).mbxPend = false ∧ t.regs = s.regs) ∧
      ((fnOf s v).rxFull = false → Answers (.pfMbxSendReply fid) s fun t => (fnOf t v).rxFull = true ∧ t.regs = s.regs))) ∧
  (∀ (s : State) (pf : Nat) (buf : ParamBuf) (p : List Byte),
    (Admitted s pf 0x0100 buf p → p.length = 16 → (pf = 0 ∨ 8 ≤ targetOf s pf) → slot p 0 ≤ 12 →
      (quotaCheck s (targetOf s pf) (slot p 0) (slot p 1) = none → Answers (.fnQuotaSet pf buf) s fun t =>
        SettledWith t pf 0 ∧ quotaOf t (targetOf s pf) (slot p 0) = slot p 1 ∧ t.regs = s.regs) ∧
      (∀ r, quotaCheck s (targetOf s pf) (slot p 0) (slot p 1) = some r → Answers (.fnQuotaSet pf buf) s fun t =>
        Settled t pf r ∧ { t with chans := s.chans } = s)) ∧
    (Admitted s pf 0x0101 buf p → p = [] → Answers (.fnQuotaQuery pf buf) s fun t =>
      (∃ r, Settled t pf r ∧ r.status = 0 ∧ r.out.length = 312) ∧ { t with chans := s.chans } = s) ∧
    (Admitted s pf 0x0102 buf p → p.length = 16 → pf = 0 → (slot p 0 = 8 ∨ slot p 0 = 9) →
      slot p 1 < (if slot p 0 = 8 then 4096 else 256) → indexTaken s (slot p 0) (slot p 1) = false →
      mayTake s (targetOf s pf) (slot p 0) 1 = true → Answers (.fnResAssign pf buf) s fun t =>
        Settled t pf (ok [BitVec.ofNat 32 (indexList (fnOf s (targetOf s pf)) (slot p 0)).length]) ∧
        indexList (fnOf t (targetOf s pf)) (slot p 0) = indexList (fnOf s (targetOf s pf)) (slot p 0) ++ [slot p 1]) ∧
    (Admitted s pf 0x0103 buf p → p.length = 8 → 8 ≤ slot p 0 → slot p 0 ≤ 10 →
      indexList (fnOf s (targetOf s pf)) (slot p 0) ≠ [] → Answers (.fnResRelease pf buf) s fun t =>
        SettledWith t pf 0 ∧ indexList (fnOf t (targetOf s pf)) (slot p 0) =
          (indexList (fnOf s (targetOf s pf)) (slot p 0)).dropLast) ∧
    (Admitted s pf 0x0104 buf p → p.length = 24 → slot p 0 % 4096 = 0 → (fnOf s (targetOf s pf)).dirty = none →
      slot p 1 % 4096 = 0 → 0 < slot p 1 → slot p 1 ≤ 2 ^ 40 → slot p 2 % 8 = 0 → dirtyCount s < 64 →
      Answers (.fnDirtyStart pf buf) s fun t =>
        SettledWith t pf 0 ∧ t.regs = s.regs ∧
        (fnOf t (targetOf s pf)).dirty = some { base := slot p 0, length := slot p 1, bitmap := slot p 2 }) ∧
    (Admitted s pf 0x0105 buf p → p.length = 8 → slot p 0 % 8 = 0 → ∀ d, (fnOf s (targetOf s pf)).dirty = some d →
      Answers (.fnDirtySwap pf buf) s fun t =>
        Settled t pf (ok [BitVec.ofNat 32 d.bits.length]) ∧
        ((fnOf t (targetOf s pf)).dirty.map fun e => (e.base, e.length, e.bitmap, e.faulted)) =
          some (d.base, d.length, slot p 0, false)) ∧
    (Admitted s pf 0x0106 buf p → p = [] → (fnOf s (targetOf s pf)).dirty ≠ none → Answers (.fnDirtyStop pf buf) s fun t =>
      SettledWith t pf 0 ∧ (fnOf t (targetOf s pf)).dirty = none)) ∧
  (∀ (s : State) (fid : Nat), clocked s = true → fid < 4096 → ∀ d, (fnOf s fid).dirty = some d →
    (∀ w, w ∈ d.changed → Answers (.dirtyWordWrite fid w) s fun t =>
      t.out = .hostWrite 0 none (d.bitmap + 8 * w) (dirtyWord d w) :: s.out ∧
      (fnOf t fid).dirty = some { d with changed := d.changed.filter (· != w) } ∧ t.regs = s.regs) ∧
    Answers (.dirtyWriteFail fid) s fun t =>
      (fnOf t fid).dirty = some { d with faulted := true } ∧ HardwareSet s t Reg.FN_DIRTY_STATUS 0 7 0)

/-! ## Work queues and the command channel -/

/-- QUEUE_DOORBELL, CQ_DOORBELL (R330, R347), DESCRIPTOR_FETCH (R332, R349), HELD_COMPLETION_WRITE, SHADOW_WRITE,
MODERATION_TIMEOUT (R345, R346, R348), QUEUE_STOP_DONE (R355, R357) and FW_MSG_EXECUTE (R353, R354). Each clause says what one of these does
where its conditions hold. -/
def Obligations.QueueEvents : Prop :=
  ∀ s : State, clocked s = true →
    (∀ fid idx : Nat, fid < 4096 → idx < 1024 → pageReach s fid = true → ∀ v : Word,
      (∀ qid, qidOf s fid idx = some qid → ∀ q, tget s.wq.queues qid = some q → q.state ≠ 6 → fnHalted s fid = false →
        (v.toNat < qSize q → (q.tail + qSize q - q.head) % qSize q ≤ (v.toNat + qSize q - q.head) % qSize q →
          v.toNat < 65536 → Answers (.queueDoorbell fid idx v) s fun t =>
            tget t.wq.queues qid = some { q with tail := v.toNat } ∧ { t with wq := s.wq } = s) ∧
        (v.toNat ≠ q.tail → (65536 ≤ v.toNat ∨ qSize q ≤ v.toNat) → Answers (.queueDoorbell fid idx v) s fun t =>
          fnHalted t fid = true ∧ flag t Reg.Q_HALT_STATUS 0 = true ∧ (q.type = 5 → deviceHalted t = true))) ∧
      (∀ c, cqidOf s fid idx = some c → ∀ q, tget s.wq.cqs c = some q → fnHalted s fid = false →
        (v.toNat < cqSize q → v.toNat < 65536 →
          (v.toNat + cqSize q - q.ci) % cqSize q ≤ (q.pi + cqSize q - q.ci) % cqSize q →
          Answers (.cqDoorbell fid idx v) s fun t =>
            tget t.wq.cqs c = some { q with ci := v.toNat, timer := q.timer && q.pi != v.toNat } ∧ { t with wq := s.wq } = s) ∧
        (v.toNat = 65536 + q.pi → q.pi < cqSize q → q.pi < 65536 → Answers (.cqDoorbell fid idx v) s fun t =>
          tget t.wq.cqs c = some { q with ci := q.pi, armed := true, timer := false } ∧ { t with wq := s.wq } = s) ∧
        ((131072 ≤ v.toNat ∨ cqSize q ≤ v.toNat % 65536) → Answers (.cqDoorbell fid idx v) s fun t =>
          fnHalted t fid = true ∧ flag t Reg.Q_HALT_STATUS 0 = true))) ∧
    (∀ qid, ∀ q, tget s.wq.queues qid = some q → fetches s qid q = true →
      ((s.wove.waiting.any fun x => q.conn == some (whConn x.2.hdr)) = false → ∀ raw : List Byte,
        checkDesc raw q.type (maxFrame s q.mac) = none → leAt raw 0 1 ≠ 0x20 → leAt raw 2 1 % 32 = 0 →
        Answers (.descriptorFetch qid ⟨.ok raw, .ok [], .ok []⟩) s fun t =>
          (tget t.wq.queues qid).map Queue.next = some ((q.next + 1) % qSize q)) ∧
      (∀ raw : List Byte, checkDesc raw q.type (maxFrame s q.mac) ≠ none →
        Answers (.descriptorFetch qid ⟨.ok raw, .ok [], .ok []⟩) s fun t =>
          (tget t.wq.queues qid).map Queue.state = some 6 ∧ fnHalted t q.fid = true ∧
          flag t Reg.Q_HALT_STATUS 0 = true) ∧
      ((fnOf s q.fid).pri = false → Answers (.descriptorFetch qid ⟨.fail .translation, .ok [], .ok []⟩) s fun t =>
        (tget t.wq.queues qid).map Queue.state = some 4)) ∧
    (∀ c, ∀ q, tget s.wq.cqs c = some q →
      (q.dead = false → canRequest s q.fid = true →
        (cqFull q = false → ∀ b rest, q.held = b :: rest → Answers (.heldCompletionWrite c) s fun t =>
          (.hostWrite q.fid q.pasid (q.base + 16 * q.pi) b) ∈ t.out) ∧
        (q.shadowPi ≠ q.pi →
          (Answers (.shadowWrite c true) s fun t =>
            (tget t.wq.cqs c).map Cq.shadowPi = some q.pi ∧
            (.hostWrite q.fid q.pasid q.shadow (toLe 4 q.pi ++ toLe 4 q.total.toNat)) ∈ t.out) ∧
          Answers (.shadowWrite c false) s fun t =>
            fnHalted t q.fid = true ∧ ∀ k ∈ t.wq.cqs, k.2.fid = q.fid → k.2.dead = true)) ∧
      (q.timer = true → Answers (.moderationTimeout c) s fun t =>
        (tget t.wq.cqs c).map (fun q => (q.armed, q.timer, q.pi)) = some (false, false, q.pi) ∧
        (fnPresent s q.fid = true → q.vector < msixSize q.fid → q.vector < quotaOf s q.fid 3 → msixReady s q.fid q.vector = true →
          t.out.head? = some (.msix q.fid q.vector)))) ∧
    (∀ qid, ∀ q, tget s.wq.queues qid = some q → q.state = 4 → q.entries = [] → q.next = q.tail → 0 < qSize q →
      Answers (.queueStopDone qid) s fun t =>
        tget t.wq.queues qid = (if q.destroy then none else some { q with state := 5, head := q.tail, next := q.tail }) ∧
        t.chans = s.chans ∧ t.mem = s.mem) ∧
    (∀ p, s.wq.queues.find? (fun p => p.2.type == 5 && (p.2.state == 1 || p.2.state == 2)) = some p →
      ∀ e, nextMessage p.2 = some e → s.cores.fwReady = true → canRequest s p.2.fid = true → fnHalted s p.2.fid = false →
        ∀ buf : List Byte, buf.length = e.len →
          (hdrOpcode buf ≠ 0x0509 → Answers (.fwMsgExecute buf) s fun t => hostReplied t p.2.fid p.2.pasid e.addr = true) ∧
          (hdrOpcode buf = 0x0509 → ∀ key, tget s.wove.revoking 8 = some key →
            (heldFor s key = false → Answers (.fwMsgExecute buf) s fun t => hostReplied t p.2.fid p.2.pasid e.addr = true) ∧
            (heldFor s key = true → Answers (.fwMsgExecute buf) s fun t => t = s)))

/-- Q_CREATE, Q_STOP, Q_RESUME, Q_DESTROY, CQ_CREATE, CQ_MODERATE, CQ_DESTROY (R333, R334, R355 to R357). Each clause says what one of these does
where its conditions hold. -/
def Obligations.QueueCommands : Prop :=
  ∀ (s : State) (pf : Nat) (buf : ParamBuf) (p : List Byte),
    (Admitted s pf 0x0200 buf p → p.length = 88 → macOk s (slot p 1) (slot p 7) = true → slot p 0 < 1024 →
      qidOf s (targetOf s pf) (slot p 0) = none → slot p 1 ≤ 4 → slot p 2 % 4096 = 0 → 6 ≤ slot p 3 → slot p 3 ≤ 16 →
      slotOpt p 4 = none → (∀ c, cqidOf s (targetOf s pf) (slot p 5) = some c → ∀ q, tget s.wq.cqs c = some q → q.kind = 0 →
        slotOpt p 6 = none → slot p 7 < 8 → slot p 8 < 8 → slot p 9 ≤ 1 → slot p 10 ≤ 1 →
        mayTake s (targetOf s pf) 1 1 = true → s.wq.queues.length < 65536 → Answers (.qCreate pf buf) s fun t =>
          SettledWith t pf 0 ∧ t.regs = s.regs ∧ t.wq.queues.length = s.wq.queues.length + 1 ∧
          (qidOf t (targetOf s pf) (slot p 0)).isSome = true)) ∧
    (Admitted s pf 0x0201 buf p → p.length = 8 → ∀ qid, qidOf s (targetOf s pf) (slot p 0) = some qid →
      (tget s.wq.queues qid).map Queue.state = some 1 → Answers (.qStop pf buf) s fun t =>
        SettledWith t pf 0 ∧ (tget t.wq.queues qid).map Queue.state = some 4) ∧
    (Admitted s pf 0x0202 buf p → p.length = 8 → ∀ qid, qidOf s (targetOf s pf) (slot p 0) = some qid →
      ∀ q, tget s.wq.queues qid = some q →
      ((q.state = 5 ∨ q.state = 3) → fnHalted s (targetOf s pf) = false → Answers (.qResume pf buf) s fun t =>
        SettledWith t pf 0 ∧ ((tget t.wq.queues qid).map Queue.state = some 1 ∨
          (tget t.wq.queues qid).map Queue.state = some 2)) ∧
      ((fnHalted s (targetOf s pf) = true ∨ q.state = 6) → Answers (.qResume pf buf) s fun t =>
        SettledWith t pf 7 ∧ { t with chans := s.chans } = s)) ∧
    (Admitted s pf 0x0203 buf p → p.length = 8 → ∀ qid, qidOf s (targetOf s pf) (slot p 0) = some qid →
      ∀ q, tget s.wq.queues qid = some q →
      (q.state = 5 → q.entries = [] → Answers (.qDestroy pf buf) s fun t =>
        SettledWith t pf 0 ∧ tget t.wq.queues qid = none) ∧
      (q.state = 6 → Answers (.qDestroy pf buf) s fun t => SettledWith t pf 0)) ∧
    (Admitted s pf 0x0204 buf p → p.length = 72 → slot p 0 < 1024 → cqidOf s (targetOf s pf) (slot p 0) = none →
      slot p 1 ≤ 1 → slot p 2 % 4096 = 0 → 6 ≤ slot p 3 → slot p 3 ≤ 16 → slot p 4 % 8 = 0 → slotOpt p 5 = none →
      slot p 6 < msixSize (targetOf s pf) → 1 ≤ slot p 7 → slot p 7 ≤ 65535 → slot p 8 ≤ 1023 →
      mayTake s (targetOf s pf) 2 1 = true → s.wq.cqs.length < 32768 → Answers (.cqCreate pf buf) s fun t =>
        SettledWith t pf 0 ∧ ∃ c ∈ t.wq.cqs, c.2.fid = targetOf s pf ∧ c.2.loc = slot p 0 ∧ c.2.base = slot p 2) ∧
    (Admitted s pf 0x0205 buf p → p.length = 24 → ∀ c, cqidOf s (targetOf s pf) (slot p 0) = some c →
      ∀ q, tget s.wq.cqs c = some q →
      (1 ≤ slot p 1 → slot p 1 ≤ 65535 → slot p 2 ≤ 1023 → Answers (.cqModerate pf buf) s fun t =>
        SettledWith t pf 0 ∧ tget t.wq.cqs c = some { q with modCount := slot p 1, modTime := slot p 2 } ∧
        { t with wq := s.wq, chans := s.chans } = s) ∧
      (slot p 1 = 0 → Answers (.cqModerate pf buf) s fun t =>
        Settled t pf (badParam 8) ∧ { t with chans := s.chans } = s)) ∧
    (Admitted s pf 0x0206 buf p → p.length = 8 → ∀ c, cqidOf s (targetOf s pf) (slot p 0) = some c →
      ((s.wq.queues.any fun q => q.2.cq == c || q.2.tsq == some c) = false → Answers (.cqDestroy pf buf) s fun t =>
        SettledWith t pf 0 ∧ tget t.wq.cqs c = none) ∧
      ((s.wq.queues.any fun q => q.2.cq == c || q.2.tsq == some c) = true → Answers (.cqDestroy pf buf) s fun t =>
        Settled t pf (badParam 0) ∧ { t with chans := s.chans } = s))

/-- CMD_SUBMIT, CMD_ABORT, ABORT_DONE, COMMAND_REPLY_RELEASE, SEALED_REPLY_RELEASE (R360, R361, R363, R368, R323), NOP, DEV_INFO,
DEV_RESET (R447), SMB_ENABLE (R487): how a command enters its channel, ends, and answers. That the sealed reply's 40 µs are
the moment its event is sent is the model's form of time. -/
def Obligations.ChannelCommands : Prop :=
  (∀ (s : State) (pf : Nat), clocked s = true → pf < 8 → pageReach s pf = true →
    ((chanOf s pf).cmd = none → s.cores.fwReady = true → (opRow (hdrOpcode (chanHdr s pf))).isSome = true →
      Answers (.cmdSubmit pf 1) s fun t =>
        (chanOf t pf).cmd = some { hdr := chanHdr s pf, phase := .accepted, at' := s.deviceTime } ∧
        (chanOf t pf).reply = [] ∧ { t with chans := s.chans } = s) ∧
    (((chanOf s pf).cmd ≠ none ∨ s.cores.fwReady = false) → Answers (.cmdSubmit pf 1) s fun t =>
      (chanOf t pf).rejected = true ∧ (chanOf t pf).rejectedCnt = (chanOf s pf).rejectedCnt + 1 ∧
      (chanOf t pf).cmd = (chanOf s pf).cmd ∧ { t with chans := s.chans } = s) ∧
    (Answers (.cmdAbort pf 1) s fun t =>
      chanOf t pf = { chanOf s pf with aborting := true } ∧ { t with chans := s.chans } = s) ∧
    (Answers (.cmdAbort pf 0) s fun t => t = s)) ∧
  (∀ (s : State) (pf : Nat), clocked s = true → pf < 8 →
    ((chanOf s pf).aborting = true → (chanOf s pf).cmd = none → Answers (.abortDone pf) s fun t =>
      (chanOf t pf).aborting = false ∧ (chanOf t pf).abortDone = true ∧ (chanOf t pf).hdr = [] ∧ t.regs = s.regs) ∧
    (∀ cmd, (chanOf s pf).cmd = some cmd → hdrOpcode cmd.hdr ≠ 3 →
      (cmd.phase = .accepted → (chanOf s pf).aborting = true → sealedBy (opRow (hdrOpcode cmd.hdr)) pf (hdrTarget cmd.hdr) true = false →
        Answers (.abortDone pf) s fun t =>
        (chanOf t pf).cmd = none ∧ (chanOf t pf).abortDone = true ∧ (chanOf t pf).done = true ∧
        (chanOf t pf).reply.head? = some (BitVec.ofNat 32 (stAborted + hdrOpcode cmd.hdr * 65536))) ∧
      (∀ r : Reply, cmd.phase = .settled r →
        (cmd.isSealed = false → (chanOf s pf).aborting = false → Answers (.commandReplyRelease pf) s fun t =>
          (chanOf t pf).cmd = none ∧ (chanOf t pf).done = true ∧ (chanOf t pf).doneCnt = (chanOf s pf).doneCnt + 1 ∧
          (chanOf t pf).reply = replyWords cmd.hdr (partialReply cmd.hdr r) (min r.out.length (hdrOutLen cmd.hdr))) ∧
        (cmd.isSealed = true → Answers (.sealedReplyRelease pf) s fun t =>
          (chanOf t pf).cmd = none ∧ (chanOf t pf).done = true ∧ (chanOf t pf).aborting = false ∧
          ((chanOf s pf).aborting = false → r.out = [] → (chanOf t pf).reply = replyWords cmd.hdr r 0)))) ∧
    (∀ cmd, (chanOf s pf).cmd = some cmd → hdrOpcode cmd.hdr = 3 → cmd.phase = .settled (ok []) → cmd.isSealed = false →
      (chanOf s pf).aborting = false → Answers (.commandReplyRelease pf) s fun t =>
        t.power = .hold ∧ t.mem = {} ∧ flag t Reg.BOOT_RESET_CAUSE 2 = true)) ∧
  (∀ (s : State) (pf : Nat) (buf : ParamBuf) (p : List Byte), p = [] →
    (Admitted s pf 0x0000 buf p → Answers (.nop pf buf) s fun t => Settled t pf (ok []) ∧ { t with chans := s.chans } = s) ∧
    (Admitted s pf 0x0001 buf p → Answers (.devInfo pf buf) s fun t =>
      Settled t pf (ok [] (devInfo s)) ∧ { t with chans := s.chans } = s) ∧
    (Admitted s pf 0x0003 buf p → Answers (.devReset pf buf) s fun t =>
      Settled t pf (ok []) ∧ { t with chans := s.chans } = s) ∧
    (Admitted s pf 0x0004 buf p → Answers (.smbEnable pf buf) s fun t =>
      SettledWith t pf 0 ∧ flag t Reg.GLB_SMB_STATUS 8 = false ∧ RegsElsewhere s t [Reg.GLB_SMB_STATUS]))

/-! ## Tables of the packet pipes -/

/-- GRAPH_WRITE, GRAPH_STAGE_WRITE, GRAPH_COMMIT (R88, R99), PROG_WRITE (R109), TEMPLATE_WRITE (R113), EM_INSERT, EM_DELETE
(R103, R108), TCAM_WRITE, TCAM_CLEAR (R105), LPM_ADD, LPM_DELETE (R106), METER_SET (R115), MIRROR_SET (R116), RSS_KEY_SET,
RSS_INDIR_SET (R86, R87), COUNTER_READ: what each changes in the tables, and that it changes nothing else. A slot in use and
a graph that fails the checks are refused with no effect. -/
def Obligations.TableCommands : Prop :=
  (∀ (s : State) (pf : Nat) (buf : ParamBuf) (p : List Byte),
    (Admitted s pf 0x0300 buf p → p.length = 24 + 80 * slot p 2 → slot p 0 < 4 → slot p 1 < 256 → 1 ≤ slot p 2 →
      slot p 2 ≤ 48 → slot p 1 + slot p 2 ≤ 256 →
      (slotInUse s (slot p 0) = false → Answers (.graphWrite pf buf) s fun t =>
        SettledWith t pf 0 ∧ { t with pkt := s.pkt, chans := s.chans } = s ∧
        graphOf t (slot p 0) = { graphOf s (slot p 0) with
          nodes := putWords (graphOf s (slot p 0)).nodes (20 * slot p 1) (p.drop 24) }) ∧
      (slotInUse s (slot p 0) = true → Answers (.graphWrite pf buf) s fun t =>
        SettledWith t pf 5 ∧ { t with chans := s.chans } = s)) ∧
    (Admitted s pf 0x0301 buf p → p.length = 56 → slot p 0 < 4 → slot p 1 < 4 → nbits (leAt p 16 4) 30 28 < 6 →
      nbits (leAt p 16 4) 19 16 ≤ 8 → progNameOk (leAt p 22 2) = true → slotInUse s (slot p 0) = false →
      Answers (.graphStageWrite pf buf) s fun t =>
        SettledWith t pf 0 ∧ { t with pkt := s.pkt, chans := s.chans } = s ∧
        graphOf t (slot p 0) = { graphOf s (slot p 0) with
          stages := putWords (graphOf s (slot p 0)).stages (10 * slot p 1) (p.drop 16) }) ∧
    (Admitted s pf 0x0302 buf p → p.length = 8 → slot p 0 < 4 →
      (graphOk (graphOf s (slot p 0)) = true → slotInUse s (slot p 0) = false → Answers (.graphCommit pf buf) s fun t =>
        SettledWith t pf 0 ∧ { t with pkt := s.pkt, chans := s.chans } = s ∧
        graphOf t (slot p 0) = { graphOf s (slot p 0) with
          liveNodes := (graphOf s (slot p 0)).nodes, liveStages := (graphOf s (slot p 0)).stages, poison := [] }) ∧
      (graphOk (graphOf s (slot p 0)) = false → Answers (.graphCommit pf buf) s fun t =>
        Settled t pf (badParam 0) ∧ { t with chans := s.chans } = s)) ∧
    (Admitted s pf 0x0303 buf p → p.length = 136 → slot p 0 < 16384 → ((List.range 16).all fun i => primOk ((primsOf (p.drop 8)).getD i 0)) = true →
      (primsOf (p.drop 8)).all (primPresent s.variant) = true → Answers (.progWrite pf buf) s fun t =>
        SettledWith t pf 0 ∧ tget t.pkt.progs (slot p 0) = some (primsOf (p.drop 8)) ∧
        { t with pkt := { t.pkt with progs := s.pkt.progs }, chans := s.chans } = s) ∧
    (Admitted s pf 0x0303 buf p → p.length = 136 → (primsOf (p.drop 8)).all (primPresent s.variant) = false →
      Answers (.progWrite pf buf) s fun t => SettledWith t pf 3 ∧ { t with chans := s.chans } = s) ∧
    (Admitted s pf 0x0304 buf p → p.length = 16 + slot p 1 → slot p 0 < 1024 → slot p 1 ≤ 64 →
      Answers (.templateWrite pf buf) s fun t =>
        SettledWith t pf 0 ∧ tgetD t.pkt.templates (slot p 0) [] = p.drop 16 ∧
        (∀ n, n ≠ slot p 0 → tget t.pkt.templates n = tget s.pkt.templates n) ∧
        { t with pkt := { t.pkt with templates := s.pkt.templates }, chans := s.chans } = s) ∧
    (Admitted s pf 0x0305 buf p → p.length = 24 + emKeyLen p → slot p 0 < 2 →
      progNameOk (beAt p (8 + emKeyLen p) 16 / 2 ^ 112) = true → emUsed s * 10 ≤ emCapacity * 9 →
      Answers (.emInsert pf buf) s fun t =>
        SettledWith t pf 0 ∧ { t with pkt := { t.pkt with em := s.pkt.em }, chans := s.chans } = s ∧
        t.pkt.em = (s.pkt.em.filter fun x => !(x.wide == (slot p 0 == 1) && x.key == beAt p 8 (emKeyLen p))) ++
          [{ wide := slot p 0 == 1, key := beAt p 8 (emKeyLen p), result := beAt p (8 + emKeyLen p) 16, fid := 0 }]) ∧
    (Admitted s pf 0x0306 buf p → p.length = 8 + emKeyLen p → slot p 0 < 2 →
      (∀ x, s.pkt.em.find? (fun x => x.wide == (slot p 0 == 1) && x.key == beAt p 8 (emKeyLen p)) = some x →
        Answers (.emDelete pf buf) s fun t =>
          SettledWith t pf 0 ∧ { t with pkt := { t.pkt with em := s.pkt.em }, chans := s.chans } = s ∧
          t.pkt.em = s.pkt.em.filter fun y => !(y.wide == x.wide && y.key == x.key)) ∧
      (s.pkt.em.find? (fun x => x.wide == (slot p 0 == 1) && x.key == beAt p 8 (emKeyLen p)) = none →
        Answers (.emDelete pf buf) s fun t => SettledWith t pf 3 ∧ t.pkt = s.pkt)) ∧
    (Admitted s pf 0x0307 buf p → p.length = 32 + 2 * tcamKeyLen p → slot p 0 < 131072 → slot p 1 < 2 →
      (slot p 1 = 1 → slot p 0 % 2 = 0) → progNameOk (beAt p (16 + 2 * tcamKeyLen p) 16 / 2 ^ 112) = true →
      Answers (.tcamWrite pf buf) s fun t =>
        SettledWith t pf 0 ∧ { t with pkt := { t.pkt with tcam := s.pkt.tcam }, chans := s.chans } = s ∧
        tget t.pkt.tcam (slot p 0) = some {
          wide := slot p 1 == 1
          key := beAt p 16 (if slot p 1 = 1 then 40 else 20)
          mask := beAt p (16 + tcamKeyLen p) (if slot p 1 = 1 then 40 else 20)
          result := beAt p (16 + 2 * tcamKeyLen p) 16 }) ∧
    (Admitted s pf 0x0308 buf p → p.length = 8 → slot p 0 < 131072 → Answers (.tcamClear pf buf) s fun t =>
      SettledWith t pf 0 ∧ { t with pkt := { t.pkt with tcam := s.pkt.tcam }, chans := s.chans } = s ∧
      t.pkt.tcam = tcamFree s.pkt.tcam (slot p 0)) ∧
    (∀ r, r = routeOf p (p.length == 48) (beAt p (if p.length = 48 then 32 else 24) 16) →
      Admitted s pf 0x0309 buf p → (p.length = 40 ∨ p.length = 48) → slot p 0 < 256 →
      slot p 1 ≤ (if p.length = 48 then 128 else 32) → progNameOk (r.result / 2 ^ 112) = true → lpmUsed s + 2 ≤ 4194304 →
      Answers (.lpmAdd pf buf) s fun t =>
        SettledWith t pf 0 ∧ { t with pkt := { t.pkt with routes := s.pkt.routes }, chans := s.chans } = s ∧
        t.pkt.routes = (s.pkt.routes.filter fun x => !sameRoute x r) ++ [r]) ∧
    (∀ r, r = routeOf p (p.length == 32) 0 →
      Admitted s pf 0x030A buf p → (p.length = 24 ∨ p.length = 32) → slot p 0 < 256 →
      slot p 1 ≤ (if p.length = 32 then 128 else 32) → s.pkt.routes.any (sameRoute r) = true →
      Answers (.lpmDelete pf buf) s fun t =>
        SettledWith t pf 0 ∧ { t with pkt := { t.pkt with routes := s.pkt.routes }, chans := s.chans } = s ∧
        t.pkt.routes = s.pkt.routes.filter fun x => !sameRoute x r)) ∧
  (∀ (s : State) (pf : Nat) (buf : ParamBuf) (p : List Byte),
    (Admitted s pf 0x030B buf p → p.length = 40 → slot p 0 < 1048576 → Answers (.meterSet pf buf) s fun t =>
      SettledWith t pf 0 ∧ { t with pkt := { t.pkt with meters := s.pkt.meters }, chans := s.chans } = s ∧
      ((tget t.pkt.meters (slot p 0)).map fun m => (m.cir, m.cbs, m.pir, m.pbs)) = some (slot p 1, slot p 2, slot p 3, slot p 4)) ∧
    (Admitted s pf 0x030C buf p → p.length = 24 → slot p 0 < 8 → nbits (slot p 1) 57 54 < 5 → 64 ≤ slot p 2 →
      slot p 2 ≤ 9216 → ∀ x, steerOf (nbits (slot p 1) 57 54) (slot p 1 % 2 ^ 32) = some x → steerPresent s.variant x = true →
      Answers (.mirrorSet pf buf) s fun t =>
        SettledWith t pf 0 ∧ { t with pkt := { t.pkt with mirrors := s.pkt.mirrors }, chans := s.chans } = s ∧
        tget t.pkt.mirrors (slot p 0) = some (x, slot p 2)) ∧
    (Admitted s pf 0x030D buf p → p.length = 56 →
      (slot p 5 < 2 → slot p 6 < 2 → Answers (.rssKeySet pf buf) s fun t =>
        SettledWith t pf 0 ∧ { t with pkt := { t.pkt with rss := s.pkt.rss }, chans := s.chans } = s ∧
        tgetD t.pkt.rss (targetOf s pf) {} = { tgetD s.pkt.rss (targetOf s pf) {} with
          key := slotBytes p 0 40, l4 := slot p 5 == 1, inner := slot p 6 == 1 }) ∧
      (2 ≤ slot p 5 → Answers (.rssKeySet pf buf) s fun t =>
        Settled t pf (badParam 40) ∧ { t with chans := s.chans } = s)) ∧
    (Admitted s pf 0x030E buf p → 18 ≤ p.length → p.length % 2 = 0 → indirSizes.contains (slot p 0) = true →
      p.length ≤ 16 + 2 * 2040 → slot p 1 + (p.length - 16) / 2 ≤ slot p 0 → Answers (.rssIndirSet pf buf) s fun t =>
        SettledWith t pf 0 ∧ { t with pkt := { t.pkt with rss := s.pkt.rss }, chans := s.chans } = s ∧
        (tgetD t.pkt.rss (targetOf s pf) {}).n = slot p 0 ∧
        tgetD (tgetD t.pkt.rss (targetOf s pf) {}).indir (slot p 1) 0 = leAt p 16 2) ∧
    (Admitted s pf 0x030F buf p → p.length = 16 → 1 ≤ slot p 1 → slot p 1 ≤ 4096 → slot p 0 + slot p 1 ≤ 2 ^ 22 →
      Answers (.counterRead pf buf) s fun t =>
        Settled t pf (ok [] ((List.range (slot p 1)).flatMap fun i => toLe 8 (tgetD s.pkt.counters (slot p 0 + i) 0).toNat)) ∧
        { t with chans := s.chans } = s))

/-! ## Data cores and threads -/

/-- CH_RECV, CH_TRYRECV, CH_SEND, CH_SENDL, CH_ACK, CH_WAIT, CH_REPLAY, THREAD_CTX_ACCESS, THREAD_GO (R385 to R388, R394, R398): the
instructions of a running thread, on completion moving its pc by 4; what they change beside the cores; where they block. Registers are those of the RISC-V base set; x0 reads 0 and discards writes. -/
def Obligations.ThreadInstructions : Prop :=
  (∀ (s : State) (h rd a b : Nat), clocked s = true → hartRuns s h = true → rd < 32 → a < 32 → b < 32 →
    (∀ p, p = (xreg s h a).toNat % 64 → mayRead h p = true →
      (∀ x, recvWord s h p = some x →
        (Answers (.chRecv h rd a) s fun t =>
          ctxOfThread t h 0 = ctxOfThread s h 0 + 4 ∧ (rd ≠ 0 → xreg t h rd = x.1) ∧ xreg t h 0 = 0 ∧
          { t with cores := s.cores } = s) ∧
        Answers (.chTryrecv h rd a) s fun t =>
          ctxOfThread t h 0 = ctxOfThread s h 0 + 4 ∧ (rd ≠ 0 → xreg t h rd = x.1) ∧ (hartOf t h).empty = false ∧
          { t with cores := s.cores } = s) ∧
      (recvWord s h p = none →
        (Answers (.chRecv h rd a) s fun t =>
          (hartOf t h).st = 2 ∧ (hartOf t h).blocked = some (.recv rd p) ∧ ctxOfThread t h 0 = ctxOfThread s h 0 ∧
          { t with cores := s.cores } = s) ∧
        Answers (.chTryrecv h rd a) s fun t =>
          ctxOfThread t h 0 = ctxOfThread s h 0 + 4 ∧ (rd ≠ 0 → xreg t h rd = 0) ∧ (hartOf t h).empty = true ∧
          { t with cores := s.cores } = s)) ∧
    (∀ target, target = (xreg s h a).toNat % 2 ^ 32 → ∀ ws, ws = openWith (hartOf s h) target (xreg s h b) → ws.length ≤ 32 →
      (Answers (.chSend h a b) s fun t =>
        ctxOfThread t h 0 = ctxOfThread s h 0 + 4 ∧
        (hartOf t h).opens = ((hartOf s h).opens.filter fun x => x.1 != target) ++ [(target, ws)] ∧
        { t with cores := s.cores } = s) ∧
      ((hartOf s h).held ≠ [] → stagedWords (hartOf s h) + ws.length ≤ 256 → Answers (.chSendl h a b) s fun t =>
        ctxOfThread t h 0 = ctxOfThread s h 0 + 4 ∧ (hartOf t h).staged = (hartOf s h).staged ++ [(target, ws)] ∧
        (hartOf t h).opens = ((hartOf s h).opens.filter fun x => x.1 != target) ∧ { t with cores := s.cores } = s) ∧
      ((hartOf s h).held = [] → ws.length ≠ 3 → target / 2 ^ 28 = 5 → Answers (.chSendl h a b) s fun t =>
        ctxOfThread t h 0 = ctxOfThread s h 0 + 4 ∧ rd64 t Reg.CHN_NOTARGET = (rd64 s Reg.CHN_NOTARGET + 1) % 2 ^ 48)) ∧
    ((hartOf s h).staged = [] → Answers (.chAck h) s fun t =>
      ctxOfThread t h 0 = ctxOfThread s h 0 + 4 ∧ (hartOf t h).held = [] ∧ { t with cores := s.cores } = s) ∧
    (∀ m, m = xreg s h a →
      (∀ p, lowestReady s h m = some p → Answers (.chWait h rd a) s fun t =>
        ctxOfThread t h 0 = ctxOfThread s h 0 + 4 ∧ (rd ≠ 0 → xreg t h rd = BitVec.ofNat 64 p) ∧
        { t with cores := s.cores } = s) ∧
      (lowestReady s h m = none → Answers (.chWait h rd a) s fun t =>
        (hartOf t h).st = 2 ∧ (hartOf t h).blocked = some (.wait rd m) ∧ { t with cores := s.cores } = s))) ∧
  (∀ (s : State) (h rd a b : Nat), clocked s = true → hartRuns s h = true → rd < 32 → a < 32 → b < 32 → privOf s h = 3 →
    (∀ v, v = 8 * hartCore h + (xreg s h a).toNat % 8 → ∀ p, p = (xreg s h b).toNat % 64 →
      hartThread h = 7 → ((hartOf s v).st = 0 ∨ (hartOf s v).st = 3) → Answers (.chReplay h a b) s fun t =>
        ctxOfThread t h 0 = ctxOfThread s h 0 + 4 ∧ (hartOf t v).held = [] ∧ (hartOf t v).staged = [] ∧
        epQueue t (hartCore h) p =
          (hartOf s v).held.map (fun x => { words := x.words, via := x.via }) ++ epQueue s (hartCore h) p ∧
        { t with cores := s.cores } = s) ∧
    (∀ o, o = 8 * hartCore h + (csr s h 0x7C0).toNat % 8 → ∀ i, i = nbits (csr s h 0x7C0).toNat 31 16 →
      ((hartOf s o).st = 0 ∨ (hartOf s o).st = 3) →
        (Answers (.threadCtxAccess h rd none) s fun t =>
          ctxOfThread t h 0 = ctxOfThread s h 0 + 4 ∧ (rd ≠ 0 → xreg t h rd = ctxRead s o i) ∧
          { t with cores := s.cores } = s) ∧
        (∀ v, i = 2 → Answers (.threadCtxAccess h rd (some v)) s fun t =>
          ctxOfThread t o 2 = v ∧ { t with cores := s.cores } = s)) ∧
    (∀ mask, Answers (.threadGo h mask) s fun t =>
      ctxOfThread t h 0 = ctxOfThread s h 0 + 4 ∧
      (∀ k, k < 8 → k ≠ hartThread h → mask.getLsbD k = true →
        ((hartOf s (8 * hartCore h + k)).st = 0 ∨ (hartOf s (8 * hartCore h + k)).st = 3) →
          (hartOf t (8 * hartCore h + k)).st = 1) ∧
      { t with cores := s.cores } = s))

/-- THREAD_FAULT (R396, R397), CORE_FAILURE (R399), CHANNEL_ITEM_DELIVER, THREAD_WAKE (R382, R391), TIMER_CMP_MATCH (R392),
LOCKSTEP_MISMATCH, FIRMWARE_RESTART_DONE (R401, R402). What a trap enters follows the RISC-V privileged architecture
(assumption 16, PRESUMED). Each clause says what one of these does
where its conditions hold. -/
def Obligations.ThreadEvents : Prop :=
  ∀ s : State, clocked s = true →
    (∀ h cause, hartRuns s h = true → ∀ tval : DWord,
      (delegated s h cause = false → hartThread h ≠ 7 → Answers (.threadFault h cause tval) s fun t =>
        (hartOf t h).st = 3 ∧ (hartOf t h).held = (hartOf s h).held ∧ (hartOf t h).staged = (hartOf s h).staged ∧
        HardwareSet s t (Reg.CORE_FAULT (hartCore h / 8) (hartCore h % 8)) 0 7 0 ∧
        ((epQueue s (hartCore h) 63).length < 64 →
          (s.cores.waiting.any fun w => w.1 == hartCore h && w.2.1 == 63) = false →
          (epQueue t (hartCore h) 63).length = (epQueue s (hartCore h) 63).length + 1 ∧
          ((epQueue t (hartCore h) 63).getLast?.map fun x => (x.words.length, x.words.take 4)) =
            some (5, [itemHeader 3 5 0 (coreSrc h) (65536 + cause % 65536), ctxOfThread s h 0, tval, s.deviceTime]))) ∧
      (delegated s h cause = false → hartThread h = 7 → (csr s h 0x300).getLsbD 42 = false →
        Answers (.threadFault h cause tval) s fun t =>
          csr t h 0x341 = ctxOfThread s h 0 ∧ csr t h 0x342 = BitVec.ofNat 64 cause ∧ csr t h 0x343 = tval ∧
          ctxOfThread t h 0 = putBits64 (csr s h 0x305) 1 0 0 ∧ privOf t h = 3 ∧
          (traceOn s (hartCore h) = false → { t with cores := s.cores } = s)) ∧
      (delegated s h cause = true → Answers (.threadFault h cause tval) s fun t =>
        csr t h 0x141 = ctxOfThread s h 0 ∧ csr t h 0x142 = BitVec.ofNat 64 cause ∧ csr t h 0x143 = tval ∧
        ctxOfThread t h 0 = putBits64 (csr s h 0x105) 1 0 0 ∧ privOf t h = 1 ∧
        (traceOn s (hartCore h) = false → { t with cores := s.cores } = s))) ∧
    (∀ c cause, coreTakes s c = true → 1 ≤ cause → cause ≤ 4 → Answers (.coreFailure c cause) s fun t =>
      coreFailed t c = true ∧ (∀ h, hartCore h = c → (hartOf t h).st = 0) ∧
      flag t (Reg.CORE_FAULT (c / 8) (c % 8)) 1 = true) ∧
    (∀ c p, coreTakes s c = true → p < 64 → (epQueue s c p).length < 64 → ∀ i,
      s.cores.waiting.findIdx? (fun w => w.1 == c && w.2.1 == p) = some i → Answers (.channelItemDeliver c p) s fun t =>
        epQueue t c p = epQueue s c p ++ [{ words := (s.cores.waiting.getD i (c, p, [])).2.2 }] ∧
        t.cores.waiting = s.cores.waiting.eraseIdx i ∧ { t with cores := s.cores } = s) ∧
    (∀ h, coreTakes s (hartCore h) = true → (hartOf s h).st = 2 → ∀ u, release s h = some u →
      Answers (.threadWake h) s fun t => (hartOf t h).st = 1 ∧ (hartOf t h).blocked = none) ∧
    (∀ c, coreTakes s c = true → csr s (8 * c + 6) 0x5C0 ≠ 0xFFFFFFFFFFFFFFFF →
      0 ≤ signed 64 (toBits 64 ((timerClock s (8 * c + 6) : Int) - (csr s (8 * c + 6) 0x5C0).toNat)) →
      (epQueue s c 62).length < 64 → (s.cores.waiting.any fun w => w.1 == c && w.2.1 == 62) = false →
      Answers (.timerCmpMatch c) s fun t =>
        csr t (8 * c + 6) 0x5C0 = 0xFFFFFFFFFFFFFFFF ∧ (epQueue t c 62).length = (epQueue s c 62).length + 1 ∧
        { t with cores := s.cores, fresh := s.fresh } = s) ∧
    (∀ pc0 pc1 : DWord, flag s Reg.MLD_KS_LOCK 0 = true → fld s Reg.MGMT_STATUS 9 8 = 0 →
      Answers (.lockstepMismatch pc0 pc1) s fun t =>
        t.cores.fwReady = false ∧ HardwareSet s t Reg.MGMT_STATUS 0 15 0 ∧
        fld t Reg.MGMT_STATUS 9 8 =
          (if 3 ≤ (s.cores.mismatches.filter fun x => s.deviceTime.toNat ≤ x + 20000000000).length then 2 else 1) ∧
        (∀ pf, pf < 8 → (chanOf t pf).cmd.all (fun c => match c.phase with | .settled _ => true | _ => false) = true)) ∧
    (fld s Reg.MGMT_STATUS 9 8 = 1 → Answers .firmwareRestartDone s fun t =>
      t.cores.fwReady = true ∧ fld t Reg.MGMT_STATUS 9 8 = 0 ∧ RegsElsewhere s t [Reg.MGMT_STATUS])

/-- CORE_IMAGE_LOAD, QUIRE_START (R393), QUIRE_STOP (R395), QUIRE_QUERY: the image lands in HBM, thread 0 of each passing
core starts in M-mode at the entry, a stop leaves the quire OFF with all its threads stopped. -/
def Obligations.QuireCommands : Prop :=
  ∀ (s : State) (pf : Nat) (buf : ParamBuf) (p : List Byte),
    (Admitted s pf 0x0700 buf p → p.length = 24 + slot p 2 → slot p 0 < 2 ^ quireCount s.variant → slot p 1 < 0x4000000 →
      slot p 1 + slot p 2 ≤ 0x4000000 → Answers (.coreImageLoad pf buf) s fun t =>
        SettledWith t pf 0 ∧ { t with mem := s.mem, chans := s.chans } = s ∧ t.mem.spm = s.mem.spm ∧
        (∀ q i, q < 8 → i < slot p 2 → slot p 0 / 2 ^ q % 2 = 1 →
          hbmByte t.mem (0x4000000 * q + slot p 1 + i) = (p.drop 24).getD i 0) ∧
        (∀ a, (∀ q, q < 8 → slot p 0 / 2 ^ q % 2 = 1 →
            a < 0x4000000 * q + slot p 1 ∨ 0x4000000 * q + slot p 1 + slot p 2 ≤ a) →
          hbmByte t.mem a = hbmByte s.mem a)) ∧
    (∀ q, q = slot p 0 → Admitted s pf 0x0701 buf p → p.length = 16 → q < quireCount s.variant → quireState s q = 0 →
      quireEntryOk s (slot p 1) = true → domOpen s q = true → ∀ pass : Byte,
      (pass ≠ 0 → Answers (.quireStart pf buf pass) s fun t =>
        SettledWith t pf 0 ∧ quireState t q = 2 ∧
        (∀ i, i < 8 → pass.getLsbD i = true → (threadOf t (8 * q + i) 0).st = 1 ∧
          ctxOfThread t (64 * q + 8 * i) 0 = BitVec.ofNat 64 (slot p 1) ∧ privOf t (64 * q + 8 * i) = 3)) ∧
      (pass = 0 → Answers (.quireStart pf buf pass) s fun t => SettledWith t pf 5 ∧ quireState t q = 0)) ∧
    (∀ q, q = slot p 0 → Admitted s pf 0x0702 buf p → p.length = 8 → q < quireCount s.variant →
      Answers (.quireStop pf buf) s fun t =>
        SettledWith t pf 0 ∧ quireState t q = 0 ∧ ∀ h, h / 64 = q → (hartOf t h).st = 0) ∧
    (Admitted s pf 0x0703 buf p → p.length = 8 → slot p 0 < quireCount s.variant → Answers (.quireQuery pf buf) s fun t =>
      (∃ r, Settled t pf r ∧ r.status = 0 ∧ r.out.length = 256) ∧ { t with chans := s.chans, fresh := s.fresh } = s)

/-! ## On-chip memory and HBM -/

/-- SPM_BANK_OWNER_WRITE, HANDOVER_COMPLETE (R407, R408), SPM_BANK_COUSER_WRITE (R409), SPM_SCRUB (R404, R410), MARCH_RUN,
MARCH_RUN_DONE, MARCH_STATUS (R411 to R414), HBM_CFG, HBM_ROW_REPAIR, HBM_QUERY, HBM_PATROL_SCRUB, HBM_REFRESH (R417 to R419). Each clause says what one of these does
where its conditions hold. -/
def Obligations.MemoryCommands : Prop :=
  (∀ (s : State) (n : Nat), clocked s = true → n < 256 →
    (∀ (m : Master) (v : Word), reachesBar0 s m = true →
      ((bankMoving s n = true ∨ bankFailed s n = true ∨ 5 ≤ bits v 31 29 ∨ bankKind s n = 5) →
        Answers (.spmBankOwnerWrite m n v) s fun t =>
          HardwareSet s t (Reg.SPM_BANK_STATUS n) 0 31 24 ∧ { t with regs := s.regs } = s ∧
          RegsElsewhere s t [Reg.SPM_BANK_STATUS n, Reg.SPM_BANK_STATUS n + 4]) ∧
      (bankMoving s n = false → bankFailed s n = false → bits v 31 29 < 5 → bankKind s n ≠ 5 → bits v 31 29 ≠ bankKind s n →
        Answers (.spmBankOwnerWrite m n v) s fun t =>
          bankMoving t n = true ∧ bankKind t n = bankKind s n ∧
          tget t.memc.handover n = some (BitVec.ofNat 32 (bits v 31 29 * 2 ^ 29 + bits v 11 0), bits v 28 28 == 1) ∧
          RegsElsewhere s t [Reg.SPM_BANK_STATUS n]) ∧
      Answers (.spmBankCouserWrite m n v) s fun t =>
        RegsElsewhere s t [Reg.SPM_BANK_COUSER n] ∧ { t with regs := s.regs } = s) ∧
    (∀ h, tget s.memc.handover n = some h → Answers (.handoverComplete n) s fun t =>
      rd t (Reg.SPM_BANK_OWNER n) = h.1 ∧ bankMoving t n = false ∧ tget t.memc.handover n = none ∧ t.mem.hbm = s.mem.hbm ∧
      (∀ a, spmByte t.mem a = if h.2 = false ∧ spmAddr n 0 ≤ a ∧ a < spmAddr n 0 + 2 ^ 20 then 0 else spmByte s.mem a) ∧
      RegsElsewhere s t [Reg.SPM_BANK_OWNER n, Reg.SPM_BANK_STATUS n]) ∧
    (∀ w, w < 16384 →
      (Answers (.spmScrub n w .clean) s fun t => t = s) ∧
      (Answers (.spmScrub n w .corrected) s fun t => HardwareSet s t (Reg.SPM_BANK_STATUS n) 2 7 0) ∧
      Answers (.spmScrub n w .uncorrectable) s fun t =>
        HardwareSet s t (Reg.SPM_BANK_STATUS n) 3 15 8 ∧ (n * 16384 + w) ∈ t.memc.spmPoison)) ∧
  (∀ s : State, clocked s = true →
    (∀ r, s.memc.march = some r → Answers (.marchRunDone []) s fun t =>
      t.memc.march = none ∧ flag t Reg.SPM_MARCH_STATUS 31 = false ∧ HardwareSet s t Reg.SPM_MARCH_STATUS 0 7 0 ∧
      t.mem.hbm = s.mem.hbm ∧ (r.2.2 = false → t.mem = s.mem) ∧
      (r.2.2 = true → ∀ a, spmByte t.mem a =
        if r.1 ≤ a / 2 ^ 20 ∧ a / 2 ^ 20 < r.1 + r.2.1 then 0 else spmByte s.mem a)) ∧
    (∀ k, k < hbmCount s.variant → selfRefresh s k = false →
      (∀ x : Byte, Answers (.hbmRefresh k x) s fun t =>
        fld t (Reg.HBM_TEMP k) 7 0 = x.toNat ∧ RegsElsewhere s t [Reg.HBM_TEMP k] ∧ { t with regs := s.regs } = s) ∧
      (fld s (Reg.HBM_CFG k) 7 0 ≠ 0 → ∀ l : HbmLoc,
        (Answers (.hbmPatrolScrub k l .clean true) s fun t =>
          rd64 t (Reg.HBM_SCRUB_PASSES k) = (rd64 s (Reg.HBM_SCRUB_PASSES k) + 1) % 2 ^ 48) ∧
        (Answers (.hbmPatrolScrub k l .corrected false) s fun t =>
          HardwareSet s t (Reg.HBM_STATUS k) 0 15 0 ∧
          rd64 t (Reg.HBM_CE_COUNT k) = (rd64 s (Reg.HBM_CE_COUNT k) + 1) % 2 ^ 48) ∧
        Answers (.hbmPatrolScrub k l .uncorrectable false) s fun t => (k, l) ∈ t.memc.hbmPoison))) ∧
  (∀ (s : State) (pf : Nat) (buf : ParamBuf) (p : List Byte),
    (Admitted s pf 0x0800 buf p → p.length = 24 → slot p 0 < 256 → 1 ≤ slot p 1 → slot p 0 + slot p 1 ≤ 256 → slot p 2 ≤ 1 →
      s.memc.march = none →
      ((slot p 2 = 1 → s.grade.cur = .provision ∧ (marchBanks (slot p 0, slot p 1, true)).all (fun b => bankKind s b == 0) = true) →
        Answers (.marchRun pf buf) s fun t =>
          SettledWith t pf 0 ∧ t.memc.march = some (slot p 0, slot p 1, slot p 2 == 1) ∧ t.mem = s.mem ∧
          flag t Reg.SPM_MARCH_STATUS 31 = true ∧ RegsElsewhere s t [Reg.SPM_MARCH_STATUS]) ∧
      (slot p 2 = 1 → s.grade.cur ≠ .provision → Answers (.marchRun pf buf) s fun t =>
        SettledWith t pf 7 ∧ { t with chans := s.chans } = s)) ∧
    (Admitted s pf 0x0801 buf p → p = [] → Answers (.marchStatus pf buf) s fun t =>
      Settled t pf (ok [] ((List.range 256).flatMap fun n => toLe 4 (rd s (Reg.SPM_BANK_STATUS n)).toNat)) ∧
      { t with chans := s.chans } = s) ∧
    (Admitted s pf 0x0808 buf p → p.length = 16 → slot p 0 < hbmCount s.variant → slot p 1 < 256 →
      Answers (.hbmCfg pf buf) s fun t =>
        SettledWith t pf 0 ∧ fld t (Reg.HBM_CFG (slot p 0)) 7 0 = slot p 1 ∧ RegsElsewhere s t [Reg.HBM_CFG (slot p 0)]) ∧
    (Admitted s pf 0x0809 buf p → p.length = 32 → slot p 0 < hbmCount s.variant → slot p 1 < 32 → slot p 2 < 256 →
      slot p 3 < 65536 → Answers (.hbmRowRepair pf buf) s fun t =>
        SettledWith t pf (if Config.hbmSpares (slot p 0) (slot p 1) (slot p 2) ≤ bankRepairs s (slot p 0) (slot p 1) (slot p 2)
          then 5 else 0) ∧ t.regs = s.regs) ∧
    (Admitted s pf 0x080A buf p → p.length = 8 → slot p 0 < hbmCount s.variant → Answers (.hbmQuery pf buf) s fun t =>
      (∃ r, Settled t pf r ∧ r.status = 0 ∧ r.out.length = 8232) ∧ { t with chans := s.chans } = s))

/-! ## Resets, boot and security -/

/-- POR_ASSERT, POR_RELEASE (R446, R449, R450, R470), VDD_AON_POWER_UP, BOOT_DEV_RESET_WRITE, DEVICE_RESET_HOLD_END (R447),
VDD_IO_LOSS (R482). Each clause says what one of these does
where its conditions hold. -/
def Obligations.ResetCommands : Prop :=
  (∀ s : State, Answers .porAssert s fun t =>
    t.power = .porLow ∧ t.deviceTime = 0 ∧ t.grade = {} ∧ t.mem = {} ∧ t.wq = {} ∧ t.cph = {} ∧ t.wove = {} ∧ t.chans = [] ∧
    t.pkt = {} ∧ t.cores = {} ∧ t.boot.fuses = s.boot.fuses ∧ t.boot.flash = s.boot.flash ∧ t.memc.hard = s.memc.hard ∧
    rd t Reg.BOOT_RESET_CAUSE = rd s Reg.BOOT_RESET_CAUSE) ∧
  (∀ s : State, s.power = .porLow →
    (Answers .porRelease s fun t =>
      t.power = .run ∧ t.deviceTime = 0 ∧ flag t Reg.BOOT_RESET_CAUSE 1 = true ∧ rd t Reg.BOOT_STRAPS = strapWord s ∧
      (s.boot.frozenExit = true → flag t Reg.BOOT_RESET_CAUSE 4 = true)) ∧
    Answers .vddAonPowerUp s fun t => rd t Reg.BOOT_RESET_CAUSE = 1 ∧ t.power = .porLow) ∧
  (∀ (s : State) (m : Master), clocked s = true → reachesBar0 s m = true →
    (∀ v : Word, (bits v 7 0 = 0xD5 → Answers (.bootDevResetWrite m v) s fun t =>
        t.power = .hold ∧ t.deviceTime = s.deviceTime ∧ flag t Reg.BOOT_RESET_CAUSE 2 = true ∧ t.mem = {} ∧ t.wq = {} ∧
        t.grade = {} ∧ t.chans = [] ∧ t.memc.soft = s.memc.soft ∧ t.memc.hard = s.memc.hard ∧ t.obs.errRecs = s.obs.errRecs) ∧
      (bits v 7 0 ≠ 0xD5 → Answers (.bootDevResetWrite m v) s fun t => t = s))) ∧
  (∀ s : State, s.power = .hold → Answers .deviceResetHoldEnd s fun t =>
    t.power = .run ∧ t.deviceTime = s.deviceTime ∧ rd t Reg.BOOT_STRAPS = rd s Reg.BOOT_STRAPS ∧
    rd t Reg.BOOT_RESET_CAUSE = rd s Reg.BOOT_RESET_CAUSE ∧ t.mem = s.mem) ∧
  (∀ s : State, Answers .vddIoLoss s fun t => fld t Reg.CRG_STATUS 9 8 = 0 ∧ t.grade = s.grade ∧ t.mem = s.mem)

/-- BOOT_SOURCE_ATTEMPT, PUSH_WAIT_TIMEOUT, BOOT_REC_GO, PLDM_REQUEST_UPDATE (R450 to R456), KEY_SLOT_LOCK (R460, R461),
KS_SIGN, KS_DERIVE, KS_WRAP, KS_UNWRAP, KS_LOAD (R462), BOOT_CONFIG_APPLY (R467), FW_READY_SET (R465), SQUELCH_LIFT (R466). Each clause says what one of these does
where its conditions hold. -/
def Obligations.BootEvents : Prop :=
  ∀ s : State, clocked s = true →
    (∀ src, triedSource s = some src → ∀ bundle : Option (List Byte), Answers (.bootSourceAttempt bundle) s fun t =>
      t.boot.push = none ∧
      (match verifyBundle s.boot bundle with
       | none => stage t = 4 ∧ fld t Reg.BOOT_STATUS 17 16 = src % 4 ∧ t.boot.images = bundleImages (bundle.getD []) ∧
           tget t.boot.keys 0 = some s.boot.fuses.secret ∧ slotState t 0 = 1
       | some code => fld t Reg.BOOT_STATUS 31 24 = code % 256 ∧ fld t Reg.BOOT_STATUS 19 18 = src % 4 ∧
           t.boot.sources = s.boot.sources.drop 1)) ∧
    (∀ src rest, s.boot.sources = src :: rest → stage s = 2 → s.boot.push = none → Answers .pushWaitTimeout s fun t =>
      t.boot.sources = rest ∧ fld t Reg.BOOT_STATUS 31 24 = 1 ∧ fld t Reg.BOOT_STATUS 19 18 = src % 4) ∧
    (∀ m : Master, reachesBar0 s m = true → recActive s = true → (recState s = 1 ∨ recState s = 4) → s.boot.push = none →
      (fnOf s 0).bme = true → Answers (.bootRecGo m 1) s fun t =>
        t.boot.push = some 2 ∧ recState t = 2 ∧ RegsElsewhere s t [Reg.BOOT_REC_STATUS]) ∧
    (∀ comp, (comp = 0xF200 → s.boot.push = none → stage s = 3 → Answers (.pldmRequestUpdate comp) s fun t =>
        t.boot = { s.boot with push := some 3 } ∧ t.out = .mgmt "PLDM_UPDATE_ACCEPTED" [] :: s.out ∧ t.regs = s.regs) ∧
      (comp ≠ 0xF200 → Answers (.pldmRequestUpdate comp) s fun t =>
        t.out = .mgmt "PLDM_UPDATE_REFUSED" [] :: s.out ∧ { t with out := s.out } = s)) ∧
    (stage s = 4 → flag s Reg.MLD_KS_LOCK 0 = false → Answers .keySlotLock s fun t =>
      flag t Reg.MLD_KS_LOCK 0 = true ∧ slotState t 0 = 4 ∧ slotState t 1 = 2 ∧ slotConsumer t 1 = 1 ∧ slotState t 2 = 2 ∧
      slotConsumer t 2 = 2 ∧ slotState t 3 = 2 ∧ slotConsumer t 3 = 3 ∧ { t with regs := s.regs } = s) ∧
    (stage s = 4 → ∀ n dst : Nat,
      (∀ b : List Byte,
        (∀ k, keyFor s n 2 = some k → Answers (.ksSign n b) s fun t =>
          t.out = .ks (some (Config.ecdsaSign k b)) :: s.out ∧ { t with out := s.out } = s) ∧
        (keyFor s n 2 = none → Answers (.ksSign n b) s fun t => t.out = .ks none :: s.out ∧ { t with out := s.out } = s) ∧
        (∀ k, keyFor s n 5 = some k →
          (5 ≤ dst → dst < 64 → Answers (.ksDerive n dst b) s fun t =>
            tget t.boot.keys dst = some (hkdf k b 32) ∧ slotState t dst = 3 ∧ RegsElsewhere s t [Reg.MLD_KS_STATE dst]) ∧
          (Answers (.ksWrap n b) s fun t =>
            t.out = .ks (some (keyWrap k b)) :: s.out ∧ { t with out := s.out } = s) ∧
          (5 ≤ dst → dst < 64 → Answers (.ksUnwrap n dst b) s fun t =>
            match keyUnwrap k b with
            | some u => tget t.boot.keys dst = some u ∧ slotState t dst = 3 ∧ RegsElsewhere s t [Reg.MLD_KS_STATE dst]
            | none => t.out = .ks none :: s.out ∧ { t with out := s.out } = s)) ∧
        (∀ consumer, 5 ≤ n → n < 64 → 1 ≤ consumer → consumer ≤ 5 → Answers (.ksLoad n consumer b) s fun t =>
          tget t.boot.keys n = some b ∧ slotState t n = 3 ∧ slotConsumer t n = consumer ∧
          RegsElsewhere s t [Reg.MLD_KS_STATE n]))) ∧
    (∀ img, tget s.boot.images 3 = some img → s.cores.fwReady = true → s.boot.configured = false →
      Answers (.bootConfigApply true) s fun t => t.boot.configured = true) ∧
    (flag s Reg.MLD_KS_LOCK 0 = true → fld s Reg.MGMT_STATUS 9 8 = 0 → Answers .fwReadySet s fun t =>
      t = { s with cores := { s.cores with fwReady := true } }) ∧
    (s.pkt.squelched = true → s.cores.fwReady = true → Answers (.squelchLift (2 ^ 19 - 1)) s fun t =>
      t.pkt.squelched = false ∧ (∀ p, p < 8 → pipePresent s p = true → pipeState t p = 3) ∧ (∀ n, n < 8 → laneState t n = 3) ∧
      laneState t 8 = 2)

/-- SPDM_REQUEST, MCTP_REQUEST (R463, R466, R487), FW_WRITE, FW_ACTIVATE (R458, R468), ATTEST_GET (R463), MINVER_SET (R459),
FW_QUERY; SMBUS_TIMEOUT, MODULE_BUS_TIMEOUT, MODULE_INT_STORM (R487). Each clause says what one of these does
where its conditions hold. -/
def Obligations.SecurityCommands : Prop :=
  (∀ s : State, clocked s = true →
    (∀ (doe : Bool) (r : SpdmReq),
      (stage s ≠ 4 → Answers (.spdmRequest doe r) s fun t =>
        t.out = .mgmt "SPDM_ERROR" [0x03] :: s.out ∧ { t with out := s.out } = s) ∧
      (stage s = 4 → (doe = true → (linkRec s 0).ready = true) →
        (Answers (.spdmRequest doe .getVersion) s fun t =>
          t.out = .mgmt "SPDM_VERSION" [] :: s.out ∧ { t with out := s.out } = s) ∧
        (∀ k : List Byte, Answers (.spdmRequest doe (.finish k)) s fun t =>
          t.boot.session = true ∧ slotState t 4 = 3 ∧ slotConsumer t 4 = 4) ∧
        Answers (.spdmRequest doe .endSession) s fun t =>
          t.boot.session = false ∧ slotState t 4 = 0 ∧ tget t.boot.keys 4 = none)) ∧
    (∀ b : List Byte, flag s Reg.GLB_SMB_STATUS 8 = false →
      (Answers (.mctpRequest .control b) s fun t =>
        t.out = .mgmt "MCTP_CONTROL" b :: s.out ∧ fld t Reg.GLB_SMB_STATUS 7 4 = 0 ∧
        { t with out := s.out, regs := s.regs } = s) ∧
      (s.cores.fwReady = false → Answers (.mctpRequest .other b) s fun t =>
        t.out = .mgmt "MCTP_NOT_READY" [0x04] :: s.out)) ∧
    (flag s Reg.GLB_SMB_STATUS 8 = false →
      (fld s Reg.GLB_SMB_STATUS 7 4 < 7 → Answers .smbusTimeout s fun t =>
        fld t Reg.GLB_SMB_STATUS 7 4 = fld s Reg.GLB_SMB_STATUS 7 4 + 1 ∧ HardwareSet s t Reg.GLB_SMB_STATUS 0 7 0 ∧
        flag t Reg.GLB_SMB_STATUS 8 = false) ∧
      (fld s Reg.GLB_SMB_STATUS 7 4 = 7 → Answers .smbusTimeout s fun t =>
        flag t Reg.GLB_SMB_STATUS 8 = true ∧ HardwareSet s t Reg.GLB_SMB_STATUS 1 15 8)) ∧
    (∀ mac, mac < macCount s.variant → s.cores.fwReady = true → ∀ x, x = tgetD s.boot.modules mac {} →
      (x.unreachable = false → Answers (.moduleBusTimeout mac) s fun t =>
        tgetD t.boot.modules mac {} = { x with timeouts := x.timeouts + 1, unreachable := decide (7 ≤ x.timeouts) } ∧
        (x.timeouts < 7 → t.regs = s.regs)) ∧
      Answers (.moduleIntStorm mac) s fun t =>
        tgetD t.boot.modules mac {} = { x with masked := true } ∧ t.regs = s.regs)) ∧
  (∀ (s : State) (pf : Nat) (buf : ParamBuf) (p : List Byte),
    (Admitted s pf 0x0B00 buf p → p.length = 24 + slot p 2 → slot p 0 < 2 →
      (0x10000 ≤ slot p 1 → slot p 1 < 2 ^ 32 → Answers (.fwWrite pf buf) s fun t =>
        SettledWith t pf 0 ∧ t.regs = s.regs ∧ slice (tgetD t.boot.flash (slot p 0) []) (slot p 1 - 0x10000) (slot p 2) = p.drop 24) ∧
      (slot p 1 < 0x10000 → Answers (.fwWrite pf buf) s fun t =>
        Settled t pf (badParam 8) ∧ { t with chans := s.chans } = s)) ∧
    (Admitted s pf 0x0B01 buf p → p.length = 8 → slot p 0 < 2 → ∀ v, v = verifyFlash s.boot (slot p 0) →
      Answers (.fwActivate pf buf) s fun t => match v with
        | .ok i => SettledWith t pf 0 ∧ t.cores.fwReady = false ∧ fld t Reg.MGMT_STATUS 9 8 = 1 ∧ tget t.boot.images 2 = some i
        | .error code => Settled t pf (refuse 8 code) ∧ fld t Reg.BOOT_STATUS 31 24 = code % 256 ∧
            RegsElsewhere s t [Reg.BOOT_STATUS]) ∧
    (Admitted s pf 0x0B02 buf p → p.length = 32 → Answers (.attestGet pf buf) s fun t =>
      (∃ r, Settled t pf r ∧ r.status = 0 ∧ 56 ≤ r.out.length) ∧ { t with chans := s.chans, fresh := s.fresh } = s) ∧
    (Admitted s pf 0x0B03 buf p → p.length = 24 → minVer s.boot 0 ≤ slot p 0 → slot p 0 ≤ imgSvn (tgetD s.boot.images 1 []) →
      minVer s.boot 1 ≤ slot p 1 → slot p 1 ≤ imgSvn (tgetD s.boot.images 2 []) → slot p 2 = 0 →
      Answers (.minverSet pf buf) s fun t =>
        SettledWith t pf 0 ∧ t.boot.fuses = s.boot.fuses ∧ RegsElsewhere s t [Reg.BOOT_MINVER 0, Reg.BOOT_MINVER 1]) ∧
    (Admitted s pf 0x0B04 buf p → p = [] → Answers (.fwQuery pf buf) s fun t =>
      (∃ r, Settled t pf r ∧ r.status = 0 ∧ r.out.length = 36) ∧ { t with chans := s.chans } = s))

/-! ## Observability, debug and freeze -/

/-- PMU_OVERFLOW (R493), PMU_SNAPSHOT, PMU_VIEW_CLEAR (R494), PMU_CFG (R490), TAG_SELECT (R495), TRC_CTL_WRITE, TRC_CFG,
TRACE_RECORD_WRITE, CORE_IDLE_ENTRY (R497, R498, R501), ERRLOG_DEQUEUE, ERRLOG_READ (R502, R503). Each clause says what one of these does
where its conditions hold. -/
def Obligations.ObservationCommands : Prop :=
  (∀ s : State, clocked s = true →
    (∀ u i, unitHasPmu s.variant u = true → i < 8 → flag s (pmuEvsel u i) 31 = true →
      Answers (.pmuOverflow (u * 65536) i) s fun t =>
        rd64 t (pmuCnt u i) = 0 ∧ flag t (pmuBlock u + 0xA0) i = true) ∧
    (∀ m : Master, reachesBar0 s m = true →
      (∀ v : Word,
        (bits v 0 0 = 1 → Answers (.pmuSnapshot m v) s fun t =>
          t.obs.snap = s.regs.filter (fun w => isCounter s.variant w.1) ∧ snapView t = true ∧
          fld t Reg.PMU_SNAP 31 16 = (fld s Reg.PMU_SNAP 31 16 + 1) % 65536 ∧ RegsElsewhere s t [Reg.PMU_SNAP]) ∧
        (bits v 1 0 = 0 → Answers (.pmuViewClear m v) s fun t =>
          snapView t = false ∧ RegsElsewhere s t [Reg.PMU_SNAP] ∧ { t with regs := s.regs } = s)) ∧
      (∀ src, src < 74 → ∀ v : Word,
        (bits v 31 31 = 1 → traceDestOk s src v = false → Answers (.trcCtlWrite m src v) s fun t =>
          HardwareSet s t (Reg.TRC_STATUS src) 2 15 8 ∧ rd t (Reg.TRC_CTL src) = rd s (Reg.TRC_CTL src)) ∧
        (bits v 31 31 = 0 → Answers (.trcCtlWrite m src v) s fun t =>
          traceOn t src = false ∧ RegsElsewhere s t [Reg.TRC_CTL src] ∧ { t with regs := s.regs } = s))) ∧
    (∀ src, src < 74 →
      (flag s (Reg.TRC_TAG src) 31 = true → Answers (.tagSelect src) s fun t =>
        t.mem = s.mem ∧ t.grade = s.grade ∧ (64 ≤ src → (srcOf t src).owed = true ∧ t.regs = s.regs)) ∧
      (∀ r rest, (srcOf s src).fifo = r :: rest → traceOn s src = true → traceWaits s src = false →
        (traceDestOk s src (rd s (Reg.TRC_CTL src)) = true → traceUnits s src ≠ 0 → flag s (Reg.TRC_CTL src) 30 = false →
          Answers (.traceRecordWrite src) s fun t =>
            (srcOf t src).fifo = rest ∧ RegsElsewhere s t [Reg.TRC_WPTR src]) ∧
        (traceDestOk s src (rd s (Reg.TRC_CTL src)) = false → Answers (.traceRecordWrite src) s fun t =>
          (srcOf t src).fifo = rest ∧ t.mem = s.mem ∧ t.regs = s.regs))) ∧
    (∀ c, coreTakes s c = true → ((List.range 8).any fun k => (threadOf s c k).st == 1) = false → (srcOf s c).idle = false →
      Answers (.coreIdleEntry c) s fun t => (srcOf t c).idle = true ∧ t.cores = s.cores) ∧
    (∀ e rest, s.obs.errQ = e :: rest →
      (newestRec s e = none → Answers .errlogDequeue s fun t =>
        t.obs.errQ = rest ∧ rd t Reg.GLB_ERR_SEQ = rd s Reg.GLB_ERR_SEQ + 1 ∧
        tget t.obs.errRecs ((rd s Reg.GLB_ERR_SEQ).toNat % 256) =
          some { seq := (rd s Reg.GLB_ERR_SEQ).toNat, ev := e, count := 1 }) ∧
      (∀ k, newestRec s e = some k → coalesces e k.2 = true → Answers .errlogDequeue s fun t =>
        t.obs.errQ = rest ∧ t.regs = s.regs ∧
        tget t.obs.errRecs k.1 = some { k.2 with count := min 255 (k.2.count + 1) }))) ∧
  (∀ (s : State) (pf : Nat) (buf : ParamBuf) (p : List Byte),
    (Admitted s pf 0x0A00 buf p → p.length = 32 → unitHasPmu s.variant (slot p 0) = true → slot p 1 < 8 →
      slot p 2 < 2 ^ 32 → slot p 3 < 2 ^ 32 → Answers (.pmuCfg pf buf) s fun t =>
        SettledWith t pf 0 ∧ flag t (pmuEvsel (slot p 0) (slot p 1)) 31 = decide (2 ^ 31 ≤ slot p 2) ∧
        RegsElsewhere s t [pmuEvsel (slot p 0) (slot p 1), pmuEvsel (slot p 0) (slot p 1) + 4]) ∧
    (Admitted s pf 0x0A01 buf p → p.length = 24 → slot p 0 < 74 → slot p 0 < 8 * quireCount s.variant ∨ 64 ≤ slot p 0 →
      slot p 1 < 256 → slot p 2 < 2 ^ 29 →
      Answers (.trcCfg pf buf) s fun t =>
        SettledWith t pf 0 ∧ traceOn t (slot p 0) = false ∧ fld t (Reg.TRC_CTL (slot p 0)) 7 0 = slot p 1 ∧
        RegsElsewhere s t [Reg.TRC_CTL (slot p 0)]) ∧
    (Admitted s pf 0x0A02 buf p → p.length = 16 → slot p 0 < 2 ^ 32 → slot p 1 ≤ 256 → Answers (.errlogRead pf buf) s fun t =>
      Settled t pf (ok [] ((List.range (slot p 1)).flatMap fun i => errSlot s (slot p 0 + i))) ∧
      { t with chans := s.chans } = s))

/-- DBG_UNLOCK, DBG_RELOCK (R505, R506), FREEZE_ARM, FREEZE_DISARM (R507, R509), FREEZE_TRIGGER (R508), and the JTAG
instructions IDCODE, SAMPLE_PRELOAD, EXTEST, BYPASS, DBG_ACCESS, FRZ_REGION, FRZ_CAPTURE (R511, R512). Each clause says what one of these does
where its conditions hold. -/
def Obligations.DebugCommands : Prop :=
  (∀ (s : State) (pf : Nat) (buf : ParamBuf) (p : List Byte),
    (Admitted s pf 0x0A05 buf p → p.length = 192 → tget s.boot.keys 3 ≠ some (sha384 (p.take 96)) →
      Answers (.dbgUnlock pf buf) s fun t =>
        SettledWith t pf 8 ∧ t.obs = s.obs ∧ fld t Reg.DBG_STATUS 15 8 = min 255 (fld s Reg.DBG_STATUS 15 8 + 1)) ∧
    (Admitted s pf 0x0A05 buf p → p.length = 192 → Answers (.dbgUnlock pf buf) s fun t =>
      (∃ r, Settled t pf r ∧ (r.status = 0 ∨ r.status = 8)) ∧ t.mem = s.mem ∧ t.grade = s.grade) ∧
    (Admitted s pf 0x0A03 buf p → p.length = 8 → slot p 0 < 2048 → slot p 0 / 32 % 8 = 0 →
      (flag s Reg.GLB_PIN_LEVEL 6 = true → Answers (.freezeArm pf buf) s fun t =>
        SettledWith t pf 0 ∧ t.obs = { s.obs with armed := true } ∧ rd t Reg.FRZ_CFG = BitVec.ofNat 32 (slot p 0) ∧
        RegsElsewhere s t [Reg.FRZ_CFG]) ∧
      (flag s Reg.GLB_PIN_LEVEL 6 = false → Answers (.freezeArm pf buf) s fun t =>
        Settled t pf (refuse 5 1) ∧ { t with chans := s.chans } = s)) ∧
    (Admitted s pf 0x0A04 buf p → p = [] → Answers (.freezeDisarm pf buf) s fun t =>
      SettledWith t pf 0 ∧ { t with obs := s.obs, chans := s.chans } = s ∧ t.obs = { s.obs with armed := false })) ∧
  (∀ s : State, clocked s = true →
    (∀ m : Master, reachesBar0 s m = true → Answers (.dbgRelock m 1) s fun t =>
      t.obs.unlocked = false ∧ { t with obs := s.obs } = s) ∧
    (∀ b, trigsIn s b ≠ 0 → Answers (.freezeTrigger b) s fun t =>
      t.grade.cur = .frozen ∧ t.grade.target = none ∧ t.obs.trig = 0 ∧
      (t.obs.latched.map fun x => (x.1, x.2.1)) = some (s.deviceTime, trigsIn s b) ∧ t.mem = s.mem ∧ clocked t = false ∧
      (∀ k, (linkRec t k).up = false)) ∧
    (s.obs.unlocked = true → ∀ a, a < 2 ^ 32 → a % 4 = 0 → rowOf s.variant a = none →
      Answers (.dbgAccess (BitVec.ofNat 65 (a * 2 ^ 32))) s fun t =>
        t.obs.jtagDr = BitVec.ofNat 65 (2 ^ 64) ∧ t.regs = s.regs ∧ t.mem = s.mem)) ∧
  (∀ s : State,
    (Answers .idcode s fun t => t.out = .tdo idcodeBits :: s.out ∧ { t with out := s.out } = s) ∧
    (∀ l : List Bool,
      (Answers (.samplePreload l) s fun t => t.obs = { s.obs with scan := l } ∧ t.regs = s.regs) ∧
      Answers (.bypass l) s fun t => t.out = .tdo (bypassOut l) :: s.out ∧ { t with out := s.out } = s) ∧
    (Answers .extest s fun t =>
      { t with out := s.out } = s ∧
      (s.power ≠ .porLow → isFrozen s = false → t.out = .tdo [false] :: s.out)) ∧
    (isFrozen s = true →
      (Answers (.frzRegion 0) s fun t => t.obs.regions = [] ∧ { t with obs := s.obs } = s) ∧
      (∀ n, 0 < n → n * 4096 ≤ hbmBytes → s.obs.regions.length < 16 → Answers (.frzRegion (BitVec.ofNat 97 (n * 4096))) s fun t =>
        t.obs = { s.obs with regions := s.obs.regions ++ [(0, 0, n * 4096)] } ∧ { t with obs := s.obs } = s) ∧
      (s.obs.unlocked = false → Answers (.frzCapture 1) s fun t =>
        t.out = (dcapFrames 0 (dcapPart 0 0xA20 (dcapHeader s) ++ dcapPart 4 0x001 (dcapLog s))).reverse ++ s.out ∧
        { t with out := s.out } = s)))


/-! ## Completion of events in their plain case -/

/-- FRAME_RECEIVE, PAUSE_RECEIVE, PFC_RECEIVE, PAUSE_TIMER_EXPIRY, XOFF_REFRESH (R51, R54 to R56, R58) and WOVE_PACKET_SEND,
WOVE_PACKET_RECEIVE, WOVE_CONTEXT_LOADED, CONN_DRAIN_END, ACK_COAL_TIMEOUT, PATH_SUSPECT_END, RETRANSMIT_TIMEOUT, RNR_RETRY,
RATE_UPDATE (R201, R204, R212 to R222) complete in their plain case with the effect that the rules give them, and leave the
memories as they are. -/
def Obligations.ReceptionAndWoveComplete : Prop :=
  ∀ s : State, clocked s = true →
    (∀ mac, mac < macCount s.variant → portEn s mac = true → linkUp s mac = true → s.pkt.squelched = false →
      (∀ rx : RxFrame, rx.uncorrectable = 0 → rx.assembly = .whole → rx.fcsBad = false → 64 ≤ rx.bytes.length →
        rx.bytes.length ≤ maxFrame s mac → Answers (.frameReceive mac rx) s fun t =>
          Counted s t (Reg.RX_FRAMES_OK mac) 1 ∧ Counted s t (Reg.RX_OCTETS_OK mac) rx.bytes.length ∧ t.mem = s.mem) ∧
      (∀ quanta, 0 < quanta → fld s (Reg.MAC_PFC_CFG mac) 25 24 = 1 → Answers (.pauseReceive mac quanta) s fun t =>
        (∀ c, c < 8 → tget (portOf t mac).paused c = some quanta) ∧ t.mem = s.mem) ∧
      (∀ (en : Byte) (quanta : List Nat), fld s (Reg.MAC_PFC_CFG mac) 25 24 = 2 → pfcIgnoreEff s mac = 0 →
        ∀ p, p < 8 → en = BitVec.ofNat 8 (2 ^ p) → 0 < quanta.getD p 0 →
          Answers (.pfcReceive mac en quanta) s fun t =>
          tget (portOf t mac).paused (prioClass s mac p) = some (quanta.getD p 0) ∧ t.mem = s.mem) ∧
      (∀ c, c < 8 → tget (portOf s mac).paused c ≠ none → Answers (.pauseTimerExpiry mac c) s fun t =>
        tget (portOf t mac).paused c = none ∧ t.mem = s.mem) ∧
      (∀ p, p < 8 → flag s (Reg.HBX_CLASS_USED mac (prioClass s mac p)) 31 = true →
        flag s (Reg.MAC_PFC_CFG mac) (8 + p) = true → Answers (.xoffRefresh mac p) s fun t =>
          Counted s t (Reg.TX_PAUSE mac) 1 ∧ t.mem = s.mem)) ∧
    (∀ n, n < 2 ^ 20 → ∀ c, tget (adopt s n).wove.conns n = some c →
      flag s Reg.WOV_CFG 0 = true → dataOn s = true → c.state ≠ 3 → c.cached = true →
        canRequest s c.fid = true → fnHalted s c.fid = false → paced s c = true → c.unacked = [] → c.resp = [] →
        c.stalled = false → stallDue c = false → psnDiff c c.nextPsn c.cumTx < 512 → qidOf s c.fid c.sq ≠ none →
        ∀ w, c.wrs.find? (fun w => !w.whole) = some w → ∀ b : List Byte, b.length = wrNeed c w →
          Answers (.wovePacketSend n (.ok b)) s fun t =>
            Counted s t Reg.WOV_TX_PKTS 1 ∧ (tget t.wove.conns n).map Conn.nextPsn = some (psnNext c c.nextPsn) ∧
            t.mem = s.mem) ∧
    (∀ n, n < 2 ^ 20 → ∀ c, tget s.wove.conns n = some c →
      (∀ mac pkt, mac < macCount s.variant → flag s Reg.WOV_CFG 0 = true → dataOn s = true → pkt.hdr.length = 32 →
        whConn pkt.hdr = n → c.state = 1 → c.cached = true → fnGone s c.fid = none → c.proto = 0 →
        saPresent s (rxKey c pkt.hdr) = true → (rideLane s false mac (packetBytes pkt).length).isSome = true →
        ∀ x, openPacket s c pkt = some x → badHeader x.2 pkt.hdr x.1.length = false → isCtrl pkt.hdr = false →
          psnDiff x.2 (whPsn pkt.hdr) x.2.cum < 0 → Answers (.wovePacketReceive mac pkt) s fun t =>
            Counted s t Reg.WOV_RX_DUP 1 ∧ t.mem = s.mem) ∧
      (c.cached = false → (s.wove.waiting.filter fun x => whConn x.2.hdr == n) = [] →
        (s.wove.conns.filter fun x => x.2.cached).length < 32768 → Answers (.woveContextLoaded n true) s fun t =>
          (tget t.wove.conns n).map Conn.cached = some true ∧ t.mem = s.mem) ∧
      (c.state = 2 → openWrs s c = [] → Answers (.connDrainEnd n) s fun t =>
        tget t.wove.conns n = none ∧ t.mem = s.mem) ∧
      (0 < c.sinceAck → c.state = 1 → c.stalled = false → stallDue c = false → Answers (.ackCoalTimeout n) s fun t =>
        (tget t.wove.conns n).map Conn.ctrlSeq = some ((c.ctrlSeq + 1) % 2 ^ 32) ∧ t.mem = s.mem) ∧
      (∀ path, path ∈ c.suspect → Answers (.pathSuspectEnd n path) s fun t =>
        ((tget t.wove.conns n).any fun d => d.suspect.contains path) = false ∧ t.mem = s.mem) ∧
      (∀ x, c.unacked.find? (fun x => x.rnrWait) = some x → Answers (.rnrRetry n x.psn) s fun t =>
        ((tget t.wove.conns n).any fun d => d.unacked.any fun y => y.psn == x.psn && y.rnrWait) = false ∧ t.mem = s.mem) ∧
      (c.state = 1 → (c.unacked.any fun x => !x.acked && x.nak.isNone) = true → c.expiries + 1 < fld s Reg.WOV_TIMERS 7 0 →
        Answers (.retransmitTimeout n) s fun t => Counted s t Reg.WOV_RTO_EXPIRED 1 ∧ t.mem = s.mem) ∧
      (rcActive s c = true → Answers (.rateUpdate n) s fun t =>
        ((tget t.wove.conns n).map fun d => (d.n, d.m)) = some (0, 0) ∧ t.mem = s.mem))

/-- QUEUE_DOORBELL, CQ_DOORBELL, DESCRIPTOR_FETCH, HELD_COMPLETION_WRITE, SHADOW_WRITE, MODERATION_TIMEOUT, QUEUE_STOP_DONE,
FW_MSG_EXECUTE (R330, R332, R345 to R348, R353 to R355) and THREAD_FAULT, CORE_FAILURE, CHANNEL_ITEM_DELIVER, THREAD_WAKE,
TIMER_CMP_MATCH, LOCKSTEP_MISMATCH, FIRMWARE_RESTART_DONE (R382, R391, R392, R396, R399, R401) complete in their plain case
with the effect that the rules give them. -/
def Obligations.QueueAndThreadComplete : Prop :=
  ∀ s : State, clocked s = true →
    (∀ fid idx : Nat, fid < 4096 → idx < 1024 → pageReach s fid = true → fnHalted s fid = false →
      (∀ qid, qidOf s fid idx = some qid → ∀ q, tget s.wq.queues qid = some q → q.state = 1 → q.head = q.tail →
        ∀ v : Word, v.toNat < qSize q → v.toNat < 65536 → Answers (.queueDoorbell fid idx v) s fun t =>
          (tget t.wq.queues qid).map Queue.tail = some v.toNat) ∧
      (∀ c, cqidOf s fid idx = some c → ∀ q, tget s.wq.cqs c = some q → q.pi < cqSize q → q.pi < 65536 →
        Answers (.cqDoorbell fid idx (BitVec.ofNat 32 q.pi)) s fun t => (tget t.wq.cqs c).map Cq.ci = some q.pi)) ∧
    (∀ qid q, tget s.wq.queues qid = some q →
      (fetches s qid q = true → q.type = 0 → ∀ raw : List Byte, checkDesc raw 0 (maxFrame s q.mac) = none →
        leAt raw 0 1 ≠ 0x20 → leAt raw 2 1 % 32 = 0 → Answers (.descriptorFetch qid ⟨.ok raw, .ok [], .ok []⟩) s fun t =>
          (tget t.wq.queues qid).map Queue.next = some ((q.next + 1) % qSize q)) ∧
      (q.state = 4 → q.entries = [] → q.next = q.tail → 0 < qSize q → q.destroy = false →
        Answers (.queueStopDone qid) s fun t => (tget t.wq.queues qid).map Queue.state = some 5)) ∧
    (∀ c q, tget s.wq.cqs c = some q → q.dead = false → canRequest s q.fid = true →
      (cqFull q = false → ∀ b rest, q.held = b :: rest → Answers (.heldCompletionWrite c) s fun t =>
        .hostWrite q.fid q.pasid (q.base + 16 * q.pi) b ∈ t.out) ∧
      (q.shadowPi ≠ q.pi → Answers (.shadowWrite c true) s fun t => (tget t.wq.cqs c).map Cq.shadowPi = some q.pi) ∧
      (q.timer = true → Answers (.moderationTimeout c) s fun t =>
        (tget t.wq.cqs c).map (fun x => (x.armed, x.timer)) = some (false, false))) ∧
    (∀ p, s.wq.queues.find? (fun p => p.2.type == 5 && (p.2.state == 1 || p.2.state == 2)) = some p →
      ∀ e, nextMessage p.2 = some e → s.cores.fwReady = true → canRequest s p.2.fid = true → fnHalted s p.2.fid = false →
        ∀ buf : List Byte, buf.length = e.len → hdrOpcode buf ≠ 0x0509 →
          Answers (.fwMsgExecute buf) s fun t => hostReplied t p.2.fid p.2.pasid e.addr = true) ∧
    (∀ h cause, hartRuns s h = true → hartThread h ≠ 7 → privOf s h = 3 → ∀ tval : DWord,
      Answers (.threadFault h cause tval) s fun t =>
        (hartOf t h).st = 3 ∧ (hartOf t h).held = (hartOf s h).held ∧
        flag t (Reg.CORE_FAULT (hartCore h / 8) (hartCore h % 8)) 0 = true) ∧
    (∀ h, coreTakes s (hartCore h) = true → (hartOf s h).st = 2 → ∀ u, release s h = some u →
      Answers (.threadWake h) s fun t => (hartOf t h).st = 1 ∧ (hartOf t h).blocked = none) ∧
    (∀ c, coreTakes s c = true →
      (∀ cause, 1 ≤ cause → cause ≤ 4 → Answers (.coreFailure c cause) s fun t =>
        coreFailed t c = true ∧ flag t (Reg.CORE_FAULT (c / 8) (c % 8)) 1 = true) ∧
      (∀ x, s.cores.waiting.head? = some x → x.1 = c → x.2.1 < 64 → (epQueue s c x.2.1).length < 64 →
        Answers (.channelItemDeliver c x.2.1) s fun t =>
          epQueue t c x.2.1 = epQueue s c x.2.1 ++ [{ words := x.2.2 }] ∧ t.cores.waiting = s.cores.waiting.drop 1) ∧
      (csr s (8 * c + 6) 0x5C0 ≠ 0xFFFFFFFFFFFFFFFF →
        0 ≤ signed 64 (toBits 64 ((timerClock s (8 * c + 6) : Int) - (csr s (8 * c + 6) 0x5C0).toNat)) →
        Answers (.timerCmpMatch c) s fun t => csr t (8 * c + 6) 0x5C0 = 0xFFFFFFFFFFFFFFFF)) ∧
    (∀ pc0 pc1 : DWord, flag s Reg.MLD_KS_LOCK 0 = true → fld s Reg.MGMT_STATUS 9 8 = 0 →
      Answers (.lockstepMismatch pc0 pc1) s fun t => t.cores.fwReady = false ∧ flag t Reg.MGMT_STATUS 0 = true) ∧
    (fld s Reg.MGMT_STATUS 9 8 = 1 → Answers .firmwareRestartDone s fun t =>
      t.cores.fwReady = true ∧ fld t Reg.MGMT_STATUS 9 8 = 0)
end

