-- ==== Sys2Proof/Laws/Tables.lean ====
section
/-! SUPPORT. Sparse tables: reading after writing, and the canonical form that every memory operation keeps. -/

namespace Sys2Proof.Machine

variable {α : Type}

theorem tget_tset (m : Tab α) (k j : Nat) (a : α) :
    tget (tset m k a) j = if k = j then some a else tget m j := by
  induction m with
  | nil => simp [tset, tget]
  | cons p t ih =>
    obtain ⟨i, b⟩ := p
    simp only [tset]
    split
    · simp only [tget]
    · split
      · subst_vars; simp only [tget]; split <;> rfl
      · simp only [tget, ih]; split <;> split <;> simp_all

@[simp] theorem tget_tset_self (m : Tab α) (k : Nat) (a : α) : tget (tset m k a) k = some a := by
  simp [tget_tset]

theorem tget_tset_ne (m : Tab α) {k j : Nat} (h : k ≠ j) (a : α) : tget (tset m k a) j = tget m j := by
  simp [tget_tset, h]

theorem tget_terase (m : Tab α) (k j : Nat) : tget (terase m k) j = if k = j then none else tget m j := by
  induction m with
  | nil => simp [terase, tget]
  | cons p t ih =>
    obtain ⟨i, b⟩ := p
    unfold terase at ih ⊢
    by_cases h : i = k
    · subst h; simp only [List.filter_cons, bne_self_eq_false, Bool.false_eq_true, if_false, ih, tget]
      split <;> simp_all
    · have hk : (i != k) = true := by simpa using h
      simp only [List.filter_cons, hk, if_true, tget, ih]; split <;> split <;> simp_all

@[simp] theorem tgetD_tset_self (m : Tab α) (k : Nat) (a d : α) : tgetD (tset m k a) k d = a := by simp [tgetD]

theorem tgetD_tset_ne (m : Tab α) {k j : Nat} (h : k ≠ j) (a d : α) : tgetD (tset m k a) j d = tgetD m j d := by
  simp [tgetD, tget_tset_ne m h]

@[simp] theorem tgetD_tmod_self (m : Tab α) (k : Nat) (d : α) (f : α → α) :
    tgetD (tmod m k d f) k d = f (tgetD m k d) := by simp [tmod]

theorem tgetD_tmod_ne (m : Tab α) {k j : Nat} (h : k ≠ j) (d : α) (f : α → α) :
    tgetD (tmod m k d f) j d = tgetD m j d := by simp [tmod, tgetD_tset_ne m h]

/-- A map over a default: reading after writing. -/
theorem sget_sput [DecidableEq α] (dflt : Nat → α) (m : List (Nat × α)) (k j : Nat) (v : α) :
    sget dflt (sput dflt m k v) j = if k = j then v else sget dflt m j := by
  unfold sget sput
  split
  · rw [tget_terase]; split <;> simp_all
  · rw [tget_tset]; split <;> rfl

@[simp] theorem sget_sput_self [DecidableEq α] (dflt : Nat → α) (m : List (Nat × α)) (k : Nat) (v : α) :
    sget dflt (sput dflt m k v) k = v := by simp [sget_sput]

theorem sget_sput_ne [DecidableEq α] (dflt : Nat → α) (m : List (Nat × α)) {k j : Nat} (h : k ≠ j) (v : α) :
    sget dflt (sput dflt m k v) j = sget dflt m j := by simp [sget_sput, h]

/-! ## Canonical form -/

/-- The two halves of the canonical form. -/
theorem swf_iff [DecidableEq α] (dflt : Nat → α) (m : List (Nat × α)) :
    swf dflt m = true ↔ (m.map Prod.fst).Pairwise (· < ·) ∧ ∀ p ∈ m, p.2 ≠ dflt p.1 := by
  simp [swf]

theorem mem_tset_key (m : Tab α) (k : Nat) (a : α) (p : Nat × α) (h : p ∈ tset m k a) : p = (k, a) ∨ p ∈ m := by
  induction m with
  | nil => simpa [tset] using h
  | cons q t ih =>
    obtain ⟨i, b⟩ := q
    simp only [tset] at h
    split at h
    · simpa using h
    · split at h
      · rcases List.mem_cons.1 h with h | h
        · exact .inl h
        · exact .inr (List.mem_cons_of_mem _ h)
      · rcases List.mem_cons.1 h with h | h
        · exact .inr (h ▸ List.mem_cons_self)
        · rcases ih h with h | h
          · exact .inl h
          · exact .inr (List.mem_cons_of_mem _ h)

theorem tset_sorted (m : Tab α) (k : Nat) (a : α) (h : (m.map Prod.fst).Pairwise (· < ·)) :
    ((tset m k a).map Prod.fst).Pairwise (· < ·) := by
  induction m with
  | nil => simp [tset]
  | cons q t ih =>
    obtain ⟨i, b⟩ := q
    have h' := List.pairwise_cons.1 h
    simp only [tset]
    split
    · rename_i hk
      simp only [List.map_cons, List.pairwise_cons]
      refine ⟨?_, h'⟩
      intro x hx
      rcases List.mem_cons.1 hx with hx | hx
      · omega
      · have := h'.1 x hx; simp only at this; omega
    · split
      · subst_vars; exact h
      · rename_i h1 h2
        simp only [List.map_cons, List.pairwise_cons]
        refine ⟨?_, ih h'.2⟩
        intro x hx
        obtain ⟨p, hp, rfl⟩ := List.mem_map.1 hx
        rcases mem_tset_key t k a p hp with rfl | hp
        · simp only; omega
        · exact h'.1 _ (List.mem_map_of_mem hp)

theorem filter_swf [DecidableEq α] (dflt : Nat → α) (m : List (Nat × α)) (f : Nat × α → Bool) (h : swf dflt m = true) :
    swf dflt (m.filter f) = true := by
  rw [swf_iff] at h ⊢
  exact ⟨h.1.sublist (List.filter_sublist.map _), fun p hp => h.2 p (List.mem_filter.1 hp).1⟩

theorem sput_swf [DecidableEq α] (dflt : Nat → α) (m : List (Nat × α)) (k : Nat) (v : α) (h : swf dflt m = true) :
    swf dflt (sput dflt m k v) = true := by
  unfold sput
  split
  · exact filter_swf dflt m _ h
  · rw [swf_iff] at h ⊢
    refine ⟨tset_sorted m k v h.1, ?_⟩
    intro p hp
    rcases mem_tset_key m k v p hp with rfl | hp
    · assumption
    · exact h.2 p hp

/-- Every operation on a memory keeps its canonical form. -/
theorem putCells_swf (bs : List Byte) (m : List (Nat × Byte)) (a : Nat) (h : swf memDefault m = true) :
    swf memDefault (putCells m a bs) = true := by
  induction bs generalizing m a with
  | nil => exact h
  | cons b t ih => exact ih _ _ (sput_swf memDefault m a b h)

theorem zeroCells_swf (m : List (Nat × Byte)) (a n : Nat) (h : swf memDefault m = true) :
    swf memDefault (zeroCells m a n) = true := filter_swf memDefault m _ h

theorem Memory.wf_iff (m : Memory) : m.wf = true ↔ swf memDefault m.spm = true ∧ swf memDefault m.hbm = true := by
  simp [Memory.wf]

theorem spmWrite_wf (s : State) (bank off : Nat) (b : List Byte) (h : s.mem.wf = true) :
    (spmWrite s bank off b).mem.wf = true := by
  rw [Memory.wf_iff] at h ⊢
  exact ⟨putCells_swf _ _ _ h.1, h.2⟩

theorem hbmWrite_wf (s : State) (stack off : Nat) (b : List Byte) (h : s.mem.wf = true) :
    (hbmWrite s stack off b).mem.wf = true := by
  rw [Memory.wf_iff] at h ⊢
  exact ⟨h.1, putCells_swf _ _ _ h.2⟩

theorem zeroBank_wf (s : State) (bank : Nat) (h : s.mem.wf = true) : (zeroBank s bank).mem.wf = true := by
  rw [Memory.wf_iff] at h ⊢
  exact ⟨zeroCells_swf _ _ _ h.1, h.2⟩

/-- Reading a byte after a write of several: one of them, or what stood there. -/
theorem putCells_get (bs : List Byte) (m : List (Nat × Byte)) (a j : Nat) :
    sget memDefault (putCells m a bs) j =
      if a ≤ j ∧ j < a + bs.length then bs.getD (j - a) 0 else sget memDefault m j := by
  induction bs generalizing m a with
  | nil =>
    have : ¬(a ≤ j ∧ j < a + ([] : List Byte).length) := by simp
    rw [if_neg this]; rfl
  | cons b t ih =>
    rw [putCells, ih, sget_sput]
    simp only [List.length_cons]
    by_cases h1 : a = j
    · subst h1
      rw [if_neg (by omega), if_pos rfl, if_pos (by omega)]; simp
    · by_cases h2 : a + 1 ≤ j ∧ j < a + 1 + t.length
      · rw [if_pos h2, if_pos (by omega)]
        obtain ⟨d, rfl⟩ : ∃ d, j = a + 1 + d := ⟨j - (a + 1), by omega⟩
        have e1 : a + 1 + d - (a + 1) = d := by omega
        have e2 : a + 1 + d - a = d + 1 := by omega
        rw [e1, e2]; simp
      · rw [if_neg h2, if_neg h1, if_neg (by omega)]

end Sys2Proof.Machine
end

