-- ==== Sys2Proof/Laws/Bytes.lean ====
section
/-! SUPPORT. Byte strings: what little-endian and big-endian fields hold, how long what the ciphers answer is, and that what
was sealed opens. -/

namespace Sys2Proof.Machine

@[simp] theorem toLe_length (n v : Nat) : (toLe n v).length = n := by
  induction n generalizing v with
  | zero => rfl
  | succ n ih => simp [toLe, ih]

@[simp] theorem toBe_length (n v : Nat) : (toBe n v).length = n := by simp [toBe]

theorem leNat_toLe (n v : Nat) : leNat (toLe n v) = v % 256 ^ n := by
  induction n generalizing v with
  | zero => simp [toLe, leNat, Nat.mod_one]
  | succ n ih =>
    simp only [toLe, leNat, ih, BitVec.toNat_ofNat]
    change v % 256 + 256 * (v / 256 % 256 ^ n) = v % 256 ^ (n + 1)
    rw [Nat.pow_succ, Nat.mul_comm (256 ^ n) 256, Nat.mod_mul]

/-- A field at the front of a byte string. -/
theorem leAt_toLe (n v : Nat) (b : List Byte) : leAt (toLe n v ++ b) 0 n = v % 256 ^ n := by
  simp [leAt, slice, leNat_toLe]

@[simp] theorem slice_length (b : List Byte) (off n : Nat) : (slice b off n).length = min n (b.length - off) := by
  simp [slice]

theorem flatMap_length_const {α : Type} (l : List α) (f : α → List Byte) (n : Nat) (h : ∀ x ∈ l, (f x).length = n) :
    (l.flatMap f).length = n * l.length := by
  induction l with
  | nil => simp
  | cons x l ih =>
    have hl := ih fun y hy => h y (List.mem_cons_of_mem _ hy)
    rw [List.flatMap_cons, List.length_append, h x (List.mem_cons_self ..), hl, List.length_cons, Nat.mul_succ]
    omega

/-! ## What the ciphers answer -/

@[simp] theorem gcmCtr_length (ks : List (List Nat)) (j : Nat) (b : List Byte) : (gcmCtr ks j b).length = b.length := by
  simp only [gcmCtr, List.length_zipWith]
  rw [flatMap_length_const _ _ 16 fun _ _ => toBe_length ..]
  simp only [List.length_range]
  omega

/-- AES-GCM's ciphertext is as long as its plaintext, its tag 16 bytes (R236). -/
theorem aeadSeal_length (alg : Nat) (key nonce aad pt : List Byte) (h : alg ≠ 2) :
    (aeadSeal alg key nonce aad pt).1.length = pt.length ∧ (aeadSeal alg key nonce aad pt).2.length = 16 := by
  unfold aeadSeal
  simp [aeadStream, aeadTag, gcmTag, h]

/-- What was sealed opens under the same key, nonce and associated data, to as many bytes. -/
theorem aeadOpen_seal (alg : Nat) (key nonce aad pt : List Byte) (h : alg ≠ 2) : ∃ b,
    aeadOpen alg key nonce aad (aeadSeal alg key nonce aad pt).1 (aeadSeal alg key nonce aad pt).2 = some b ∧
    b.length = pt.length := by
  unfold aeadOpen aeadSeal
  exact ⟨_, if_pos rfl, by simp [aeadStream, h]⟩

/-! ## The records of SAs -/

@[simp] theorem saHeader_length (a : Sa) : (saHeader a).length = 8 := by simp [saHeader]

@[simp] theorem saBody_length (a : Sa) : (saBody a).length = 104 := by
  unfold saBody
  by_cases h : a.alg = 3 ∨ a.alg = 4 <;> simp [h]

/-- The nonce of a record is that of its own header (R240). -/
theorem wrapNonce_header (n : Nat) (a : Sa) (b : List Byte) :
    wrapNonce n (leAt (saHeader a ++ b) 0 8) = wrapNonce n a.writeCnt := by
  rw [wrapNonce, saHeader, leAt_toLe, wrapNonce]
  congr 2
  omega

/-- A record that was written opens under the wrapping key (R240). -/
theorem recordOpens_putRecord (s : State) (n : Nat) : recordOpens (putRecord s n) n = true := by
  have hl := aeadSeal_length 1 (wrapKey s) (wrapNonce n (saOf s n).writeCnt) (saHeader (saOf s n)) (saBody (saOf s n)) (by decide)
  obtain ⟨b, ho, -⟩ := aeadOpen_seal 1 (wrapKey s) (wrapNonce n (saOf s n).writeCnt) (saHeader (saOf s n)) (saBody (saOf s n))
    (by decide)
  have hr : tget (putRecord s n).cph.records n = some (saHeader (saOf s n) ++
      (aeadSeal 1 (wrapKey s) (wrapNonce n (saOf s n).writeCnt) (saHeader (saOf s n)) (saBody (saOf s n))).1 ++
      (aeadSeal 1 (wrapKey s) (wrapNonce n (saOf s n).writeCnt) (saHeader (saOf s n)) (saBody (saOf s n))).2) := by
    simp [putRecord]
  have hk : wrapKey (putRecord s n) = wrapKey s := rfl
  rw [recordOpens, hr]
  generalize aeadSeal 1 (wrapKey s) (wrapNonce n (saOf s n).writeCnt) (saHeader (saOf s n)) (saBody (saOf s n)) = x at *
  simp only [saBody_length] at hl
  have h1 : (saHeader (saOf s n) ++ x.1 ++ x.2).take 8 = saHeader (saOf s n) := by
    rw [List.append_assoc, List.take_append_of_le_length (by simp)]
    simp
  have h2 : slice (saHeader (saOf s n) ++ x.1 ++ x.2) 8 104 = x.1 := by
    rw [slice, List.append_assoc, List.drop_append_of_le_length (by simp),
      List.drop_of_length_le (by simp), List.nil_append, ← hl.1, List.take_left]
  have h3 : slice (saHeader (saOf s n) ++ x.1 ++ x.2) 112 16 = x.2 := by
    have hd : (saHeader (saOf s n) ++ x.1).length = 112 := by simp [hl.1]
    rw [slice, ← hd, List.drop_left, List.take_of_length_le (by omega)]
  simp only [h1, h2, h3, hk]
  rw [List.append_assoc, wrapNonce_header, ho]
  rfl

end Sys2Proof.Machine
end

