-- ==== Sys2Proof/Laws/State.lean ====
section
/-! SUPPORT. One lemma for each field of State and each update: what the update leaves as it was, and what it writes. -/

namespace Sys2Proof.Machine

/-! ### wr -/

@[simp] theorem wr_pending (s : State) (a : Nat) (v : Word) : (wr s a v).pending = s.pending := rfl
@[simp] theorem wr_variant (s : State) (a : Nat) (v : Word) : (wr s a v).variant = s.variant := rfl
@[simp] theorem wr_power (s : State) (a : Nat) (v : Word) : (wr s a v).power = s.power := rfl
@[simp] theorem wr_deviceTime (s : State) (a : Nat) (v : Word) : (wr s a v).deviceTime = s.deviceTime := rfl
@[simp] theorem wr_fresh (s : State) (a : Nat) (v : Word) : (wr s a v).fresh = s.fresh := rfl
@[simp] theorem wr_readLatch (s : State) (a : Nat) (v : Word) : (wr s a v).readLatch = s.readLatch := rfl
@[simp] theorem wr_writeLatch (s : State) (a : Nat) (v : Word) : (wr s a v).writeLatch = s.writeLatch := rfl
@[simp] theorem wr_out (s : State) (a : Nat) (v : Word) : (wr s a v).out = s.out := rfl
@[simp] theorem wr_grade (s : State) (a : Nat) (v : Word) : (wr s a v).grade = s.grade := rfl
@[simp] theorem wr_obs (s : State) (a : Nat) (v : Word) : (wr s a v).obs = s.obs := rfl
@[simp] theorem wr_host (s : State) (a : Nat) (v : Word) : (wr s a v).host = s.host := rfl
@[simp] theorem wr_chans (s : State) (a : Nat) (v : Word) : (wr s a v).chans = s.chans := rfl
@[simp] theorem wr_mem (s : State) (a : Nat) (v : Word) : (wr s a v).mem = s.mem := rfl
@[simp] theorem wr_pkt (s : State) (a : Nat) (v : Word) : (wr s a v).pkt = s.pkt := rfl
@[simp] theorem wr_time (s : State) (a : Nat) (v : Word) : (wr s a v).time = s.time := rfl
@[simp] theorem wr_wq (s : State) (a : Nat) (v : Word) : (wr s a v).wq = s.wq := rfl
@[simp] theorem wr_dry (s : State) (a : Nat) (v : Word) : (wr s a v).dry = s.dry := rfl
@[simp] theorem wr_cores (s : State) (a : Nat) (v : Word) : (wr s a v).cores = s.cores := rfl
@[simp] theorem wr_cph (s : State) (a : Nat) (v : Word) : (wr s a v).cph = s.cph := rfl
@[simp] theorem wr_wove (s : State) (a : Nat) (v : Word) : (wr s a v).wove = s.wove := rfl
@[simp] theorem wr_boot (s : State) (a : Nat) (v : Word) : (wr s a v).boot = s.boot := rfl
@[simp] theorem wr_memc (s : State) (a : Nat) (v : Word) : (wr s a v).memc = s.memc := rfl

/-! ### setFld -/

@[simp] theorem setFld_pending (s : State) (a hi lo v : Nat) : (setFld s a hi lo v).pending = s.pending := wr_pending _ _ _
@[simp] theorem setFld_variant (s : State) (a hi lo v : Nat) : (setFld s a hi lo v).variant = s.variant := wr_variant _ _ _
@[simp] theorem setFld_power (s : State) (a hi lo v : Nat) : (setFld s a hi lo v).power = s.power := wr_power _ _ _
@[simp] theorem setFld_deviceTime (s : State) (a hi lo v : Nat) : (setFld s a hi lo v).deviceTime = s.deviceTime := wr_deviceTime _ _ _
@[simp] theorem setFld_fresh (s : State) (a hi lo v : Nat) : (setFld s a hi lo v).fresh = s.fresh := wr_fresh _ _ _
@[simp] theorem setFld_readLatch (s : State) (a hi lo v : Nat) : (setFld s a hi lo v).readLatch = s.readLatch := wr_readLatch _ _ _
@[simp] theorem setFld_writeLatch (s : State) (a hi lo v : Nat) : (setFld s a hi lo v).writeLatch = s.writeLatch := wr_writeLatch _ _ _
@[simp] theorem setFld_out (s : State) (a hi lo v : Nat) : (setFld s a hi lo v).out = s.out := wr_out _ _ _
@[simp] theorem setFld_grade (s : State) (a hi lo v : Nat) : (setFld s a hi lo v).grade = s.grade := wr_grade _ _ _
@[simp] theorem setFld_obs (s : State) (a hi lo v : Nat) : (setFld s a hi lo v).obs = s.obs := wr_obs _ _ _
@[simp] theorem setFld_host (s : State) (a hi lo v : Nat) : (setFld s a hi lo v).host = s.host := wr_host _ _ _
@[simp] theorem setFld_chans (s : State) (a hi lo v : Nat) : (setFld s a hi lo v).chans = s.chans := wr_chans _ _ _
@[simp] theorem setFld_mem (s : State) (a hi lo v : Nat) : (setFld s a hi lo v).mem = s.mem := wr_mem _ _ _
@[simp] theorem setFld_pkt (s : State) (a hi lo v : Nat) : (setFld s a hi lo v).pkt = s.pkt := wr_pkt _ _ _
@[simp] theorem setFld_time (s : State) (a hi lo v : Nat) : (setFld s a hi lo v).time = s.time := wr_time _ _ _
@[simp] theorem setFld_wq (s : State) (a hi lo v : Nat) : (setFld s a hi lo v).wq = s.wq := wr_wq _ _ _
@[simp] theorem setFld_dry (s : State) (a hi lo v : Nat) : (setFld s a hi lo v).dry = s.dry := wr_dry _ _ _
@[simp] theorem setFld_cores (s : State) (a hi lo v : Nat) : (setFld s a hi lo v).cores = s.cores := wr_cores _ _ _
@[simp] theorem setFld_cph (s : State) (a hi lo v : Nat) : (setFld s a hi lo v).cph = s.cph := wr_cph _ _ _
@[simp] theorem setFld_wove (s : State) (a hi lo v : Nat) : (setFld s a hi lo v).wove = s.wove := wr_wove _ _ _
@[simp] theorem setFld_boot (s : State) (a hi lo v : Nat) : (setFld s a hi lo v).boot = s.boot := wr_boot _ _ _
@[simp] theorem setFld_memc (s : State) (a hi lo v : Nat) : (setFld s a hi lo v).memc = s.memc := wr_memc _ _ _

/-! ### setFlag -/

@[simp] theorem setFlag_pending (s : State) (a b : Nat) (v : Bool) : (setFlag s a b v).pending = s.pending := setFld_pending _ _ _ _ _
@[simp] theorem setFlag_variant (s : State) (a b : Nat) (v : Bool) : (setFlag s a b v).variant = s.variant := setFld_variant _ _ _ _ _
@[simp] theorem setFlag_power (s : State) (a b : Nat) (v : Bool) : (setFlag s a b v).power = s.power := setFld_power _ _ _ _ _
@[simp] theorem setFlag_deviceTime (s : State) (a b : Nat) (v : Bool) : (setFlag s a b v).deviceTime = s.deviceTime := setFld_deviceTime _ _ _ _ _
@[simp] theorem setFlag_fresh (s : State) (a b : Nat) (v : Bool) : (setFlag s a b v).fresh = s.fresh := setFld_fresh _ _ _ _ _
@[simp] theorem setFlag_readLatch (s : State) (a b : Nat) (v : Bool) : (setFlag s a b v).readLatch = s.readLatch := setFld_readLatch _ _ _ _ _
@[simp] theorem setFlag_writeLatch (s : State) (a b : Nat) (v : Bool) : (setFlag s a b v).writeLatch = s.writeLatch := setFld_writeLatch _ _ _ _ _
@[simp] theorem setFlag_out (s : State) (a b : Nat) (v : Bool) : (setFlag s a b v).out = s.out := setFld_out _ _ _ _ _
@[simp] theorem setFlag_grade (s : State) (a b : Nat) (v : Bool) : (setFlag s a b v).grade = s.grade := setFld_grade _ _ _ _ _
@[simp] theorem setFlag_obs (s : State) (a b : Nat) (v : Bool) : (setFlag s a b v).obs = s.obs := setFld_obs _ _ _ _ _
@[simp] theorem setFlag_host (s : State) (a b : Nat) (v : Bool) : (setFlag s a b v).host = s.host := setFld_host _ _ _ _ _
@[simp] theorem setFlag_chans (s : State) (a b : Nat) (v : Bool) : (setFlag s a b v).chans = s.chans := setFld_chans _ _ _ _ _
@[simp] theorem setFlag_mem (s : State) (a b : Nat) (v : Bool) : (setFlag s a b v).mem = s.mem := setFld_mem _ _ _ _ _
@[simp] theorem setFlag_pkt (s : State) (a b : Nat) (v : Bool) : (setFlag s a b v).pkt = s.pkt := setFld_pkt _ _ _ _ _
@[simp] theorem setFlag_time (s : State) (a b : Nat) (v : Bool) : (setFlag s a b v).time = s.time := setFld_time _ _ _ _ _
@[simp] theorem setFlag_wq (s : State) (a b : Nat) (v : Bool) : (setFlag s a b v).wq = s.wq := setFld_wq _ _ _ _ _
@[simp] theorem setFlag_dry (s : State) (a b : Nat) (v : Bool) : (setFlag s a b v).dry = s.dry := setFld_dry _ _ _ _ _
@[simp] theorem setFlag_cores (s : State) (a b : Nat) (v : Bool) : (setFlag s a b v).cores = s.cores := setFld_cores _ _ _ _ _
@[simp] theorem setFlag_cph (s : State) (a b : Nat) (v : Bool) : (setFlag s a b v).cph = s.cph := setFld_cph _ _ _ _ _
@[simp] theorem setFlag_wove (s : State) (a b : Nat) (v : Bool) : (setFlag s a b v).wove = s.wove := setFld_wove _ _ _ _ _
@[simp] theorem setFlag_boot (s : State) (a b : Nat) (v : Bool) : (setFlag s a b v).boot = s.boot := setFld_boot _ _ _ _ _
@[simp] theorem setFlag_memc (s : State) (a b : Nat) (v : Bool) : (setFlag s a b v).memc = s.memc := setFld_memc _ _ _ _ _

/-! ### wr64 -/

@[simp] theorem wr64_pending (s : State) (a v : Nat) : (wr64 s a v).pending = s.pending := (wr_pending _ _ _).trans (wr_pending _ _ _)
@[simp] theorem wr64_variant (s : State) (a v : Nat) : (wr64 s a v).variant = s.variant := (wr_variant _ _ _).trans (wr_variant _ _ _)
@[simp] theorem wr64_power (s : State) (a v : Nat) : (wr64 s a v).power = s.power := (wr_power _ _ _).trans (wr_power _ _ _)
@[simp] theorem wr64_deviceTime (s : State) (a v : Nat) : (wr64 s a v).deviceTime = s.deviceTime := (wr_deviceTime _ _ _).trans (wr_deviceTime _ _ _)
@[simp] theorem wr64_fresh (s : State) (a v : Nat) : (wr64 s a v).fresh = s.fresh := (wr_fresh _ _ _).trans (wr_fresh _ _ _)
@[simp] theorem wr64_readLatch (s : State) (a v : Nat) : (wr64 s a v).readLatch = s.readLatch := (wr_readLatch _ _ _).trans (wr_readLatch _ _ _)
@[simp] theorem wr64_writeLatch (s : State) (a v : Nat) : (wr64 s a v).writeLatch = s.writeLatch := (wr_writeLatch _ _ _).trans (wr_writeLatch _ _ _)
@[simp] theorem wr64_out (s : State) (a v : Nat) : (wr64 s a v).out = s.out := (wr_out _ _ _).trans (wr_out _ _ _)
@[simp] theorem wr64_grade (s : State) (a v : Nat) : (wr64 s a v).grade = s.grade := (wr_grade _ _ _).trans (wr_grade _ _ _)
@[simp] theorem wr64_obs (s : State) (a v : Nat) : (wr64 s a v).obs = s.obs := (wr_obs _ _ _).trans (wr_obs _ _ _)
@[simp] theorem wr64_host (s : State) (a v : Nat) : (wr64 s a v).host = s.host := (wr_host _ _ _).trans (wr_host _ _ _)
@[simp] theorem wr64_chans (s : State) (a v : Nat) : (wr64 s a v).chans = s.chans := (wr_chans _ _ _).trans (wr_chans _ _ _)
@[simp] theorem wr64_mem (s : State) (a v : Nat) : (wr64 s a v).mem = s.mem := (wr_mem _ _ _).trans (wr_mem _ _ _)
@[simp] theorem wr64_pkt (s : State) (a v : Nat) : (wr64 s a v).pkt = s.pkt := (wr_pkt _ _ _).trans (wr_pkt _ _ _)
@[simp] theorem wr64_time (s : State) (a v : Nat) : (wr64 s a v).time = s.time := (wr_time _ _ _).trans (wr_time _ _ _)
@[simp] theorem wr64_wq (s : State) (a v : Nat) : (wr64 s a v).wq = s.wq := (wr_wq _ _ _).trans (wr_wq _ _ _)
@[simp] theorem wr64_dry (s : State) (a v : Nat) : (wr64 s a v).dry = s.dry := (wr_dry _ _ _).trans (wr_dry _ _ _)
@[simp] theorem wr64_cores (s : State) (a v : Nat) : (wr64 s a v).cores = s.cores := (wr_cores _ _ _).trans (wr_cores _ _ _)
@[simp] theorem wr64_cph (s : State) (a v : Nat) : (wr64 s a v).cph = s.cph := (wr_cph _ _ _).trans (wr_cph _ _ _)
@[simp] theorem wr64_wove (s : State) (a v : Nat) : (wr64 s a v).wove = s.wove := (wr_wove _ _ _).trans (wr_wove _ _ _)
@[simp] theorem wr64_boot (s : State) (a v : Nat) : (wr64 s a v).boot = s.boot := (wr_boot _ _ _).trans (wr_boot _ _ _)
@[simp] theorem wr64_memc (s : State) (a v : Nat) : (wr64 s a v).memc = s.memc := (wr_memc _ _ _).trans (wr_memc _ _ _)

/-! ### count -/

@[simp] theorem count_pending (s : State) (a n : Nat) : (count s a n).pending = s.pending := wr64_pending _ _ _
@[simp] theorem count_variant (s : State) (a n : Nat) : (count s a n).variant = s.variant := wr64_variant _ _ _
@[simp] theorem count_power (s : State) (a n : Nat) : (count s a n).power = s.power := wr64_power _ _ _
@[simp] theorem count_deviceTime (s : State) (a n : Nat) : (count s a n).deviceTime = s.deviceTime := wr64_deviceTime _ _ _
@[simp] theorem count_fresh (s : State) (a n : Nat) : (count s a n).fresh = s.fresh := wr64_fresh _ _ _
@[simp] theorem count_readLatch (s : State) (a n : Nat) : (count s a n).readLatch = s.readLatch := wr64_readLatch _ _ _
@[simp] theorem count_writeLatch (s : State) (a n : Nat) : (count s a n).writeLatch = s.writeLatch := wr64_writeLatch _ _ _
@[simp] theorem count_out (s : State) (a n : Nat) : (count s a n).out = s.out := wr64_out _ _ _
@[simp] theorem count_grade (s : State) (a n : Nat) : (count s a n).grade = s.grade := wr64_grade _ _ _
@[simp] theorem count_obs (s : State) (a n : Nat) : (count s a n).obs = s.obs := wr64_obs _ _ _
@[simp] theorem count_host (s : State) (a n : Nat) : (count s a n).host = s.host := wr64_host _ _ _
@[simp] theorem count_chans (s : State) (a n : Nat) : (count s a n).chans = s.chans := wr64_chans _ _ _
@[simp] theorem count_mem (s : State) (a n : Nat) : (count s a n).mem = s.mem := wr64_mem _ _ _
@[simp] theorem count_pkt (s : State) (a n : Nat) : (count s a n).pkt = s.pkt := wr64_pkt _ _ _
@[simp] theorem count_time (s : State) (a n : Nat) : (count s a n).time = s.time := wr64_time _ _ _
@[simp] theorem count_wq (s : State) (a n : Nat) : (count s a n).wq = s.wq := wr64_wq _ _ _
@[simp] theorem count_dry (s : State) (a n : Nat) : (count s a n).dry = s.dry := wr64_dry _ _ _
@[simp] theorem count_cores (s : State) (a n : Nat) : (count s a n).cores = s.cores := wr64_cores _ _ _
@[simp] theorem count_cph (s : State) (a n : Nat) : (count s a n).cph = s.cph := wr64_cph _ _ _
@[simp] theorem count_wove (s : State) (a n : Nat) : (count s a n).wove = s.wove := wr64_wove _ _ _
@[simp] theorem count_boot (s : State) (a n : Nat) : (count s a n).boot = s.boot := wr64_boot _ _ _
@[simp] theorem count_memc (s : State) (a n : Nat) : (count s a n).memc = s.memc := wr64_memc _ _ _

/-! ### hwSet -/

@[simp] theorem hwSet_pending (s : State) (a b hi lo : Nat) : (hwSet s a b hi lo).pending = s.pending := (setFld_pending _ _ _ _ _).trans (setFlag_pending _ _ _ _)
@[simp] theorem hwSet_variant (s : State) (a b hi lo : Nat) : (hwSet s a b hi lo).variant = s.variant := (setFld_variant _ _ _ _ _).trans (setFlag_variant _ _ _ _)
@[simp] theorem hwSet_power (s : State) (a b hi lo : Nat) : (hwSet s a b hi lo).power = s.power := (setFld_power _ _ _ _ _).trans (setFlag_power _ _ _ _)
@[simp] theorem hwSet_deviceTime (s : State) (a b hi lo : Nat) : (hwSet s a b hi lo).deviceTime = s.deviceTime := (setFld_deviceTime _ _ _ _ _).trans (setFlag_deviceTime _ _ _ _)
@[simp] theorem hwSet_fresh (s : State) (a b hi lo : Nat) : (hwSet s a b hi lo).fresh = s.fresh := (setFld_fresh _ _ _ _ _).trans (setFlag_fresh _ _ _ _)
@[simp] theorem hwSet_readLatch (s : State) (a b hi lo : Nat) : (hwSet s a b hi lo).readLatch = s.readLatch := (setFld_readLatch _ _ _ _ _).trans (setFlag_readLatch _ _ _ _)
@[simp] theorem hwSet_writeLatch (s : State) (a b hi lo : Nat) : (hwSet s a b hi lo).writeLatch = s.writeLatch := (setFld_writeLatch _ _ _ _ _).trans (setFlag_writeLatch _ _ _ _)
@[simp] theorem hwSet_out (s : State) (a b hi lo : Nat) : (hwSet s a b hi lo).out = s.out := (setFld_out _ _ _ _ _).trans (setFlag_out _ _ _ _)
@[simp] theorem hwSet_grade (s : State) (a b hi lo : Nat) : (hwSet s a b hi lo).grade = s.grade := (setFld_grade _ _ _ _ _).trans (setFlag_grade _ _ _ _)
@[simp] theorem hwSet_obs (s : State) (a b hi lo : Nat) : (hwSet s a b hi lo).obs = s.obs := (setFld_obs _ _ _ _ _).trans (setFlag_obs _ _ _ _)
@[simp] theorem hwSet_host (s : State) (a b hi lo : Nat) : (hwSet s a b hi lo).host = s.host := (setFld_host _ _ _ _ _).trans (setFlag_host _ _ _ _)
@[simp] theorem hwSet_chans (s : State) (a b hi lo : Nat) : (hwSet s a b hi lo).chans = s.chans := (setFld_chans _ _ _ _ _).trans (setFlag_chans _ _ _ _)
@[simp] theorem hwSet_mem (s : State) (a b hi lo : Nat) : (hwSet s a b hi lo).mem = s.mem := (setFld_mem _ _ _ _ _).trans (setFlag_mem _ _ _ _)
@[simp] theorem hwSet_pkt (s : State) (a b hi lo : Nat) : (hwSet s a b hi lo).pkt = s.pkt := (setFld_pkt _ _ _ _ _).trans (setFlag_pkt _ _ _ _)
@[simp] theorem hwSet_time (s : State) (a b hi lo : Nat) : (hwSet s a b hi lo).time = s.time := (setFld_time _ _ _ _ _).trans (setFlag_time _ _ _ _)
@[simp] theorem hwSet_wq (s : State) (a b hi lo : Nat) : (hwSet s a b hi lo).wq = s.wq := (setFld_wq _ _ _ _ _).trans (setFlag_wq _ _ _ _)
@[simp] theorem hwSet_dry (s : State) (a b hi lo : Nat) : (hwSet s a b hi lo).dry = s.dry := (setFld_dry _ _ _ _ _).trans (setFlag_dry _ _ _ _)
@[simp] theorem hwSet_cores (s : State) (a b hi lo : Nat) : (hwSet s a b hi lo).cores = s.cores := (setFld_cores _ _ _ _ _).trans (setFlag_cores _ _ _ _)
@[simp] theorem hwSet_cph (s : State) (a b hi lo : Nat) : (hwSet s a b hi lo).cph = s.cph := (setFld_cph _ _ _ _ _).trans (setFlag_cph _ _ _ _)
@[simp] theorem hwSet_wove (s : State) (a b hi lo : Nat) : (hwSet s a b hi lo).wove = s.wove := (setFld_wove _ _ _ _ _).trans (setFlag_wove _ _ _ _)
@[simp] theorem hwSet_boot (s : State) (a b hi lo : Nat) : (hwSet s a b hi lo).boot = s.boot := (setFld_boot _ _ _ _ _).trans (setFlag_boot _ _ _ _)
@[simp] theorem hwSet_memc (s : State) (a b hi lo : Nat) : (hwSet s a b hi lo).memc = s.memc := (setFld_memc _ _ _ _ _).trans (setFlag_memc _ _ _ _)

/-! ### emit -/

@[simp] theorem emit_pending (s : State) (o : Out) : (emit s o).pending = s.pending := rfl
@[simp] theorem emit_variant (s : State) (o : Out) : (emit s o).variant = s.variant := rfl
@[simp] theorem emit_power (s : State) (o : Out) : (emit s o).power = s.power := rfl
@[simp] theorem emit_deviceTime (s : State) (o : Out) : (emit s o).deviceTime = s.deviceTime := rfl
@[simp] theorem emit_fresh (s : State) (o : Out) : (emit s o).fresh = s.fresh := rfl
@[simp] theorem emit_regs (s : State) (o : Out) : (emit s o).regs = s.regs := rfl
@[simp] theorem emit_readLatch (s : State) (o : Out) : (emit s o).readLatch = s.readLatch := rfl
@[simp] theorem emit_writeLatch (s : State) (o : Out) : (emit s o).writeLatch = s.writeLatch := rfl
@[simp] theorem emit_grade (s : State) (o : Out) : (emit s o).grade = s.grade := rfl
@[simp] theorem emit_obs (s : State) (o : Out) : (emit s o).obs = s.obs := rfl
@[simp] theorem emit_host (s : State) (o : Out) : (emit s o).host = s.host := rfl
@[simp] theorem emit_chans (s : State) (o : Out) : (emit s o).chans = s.chans := rfl
@[simp] theorem emit_mem (s : State) (o : Out) : (emit s o).mem = s.mem := rfl
@[simp] theorem emit_pkt (s : State) (o : Out) : (emit s o).pkt = s.pkt := rfl
@[simp] theorem emit_time (s : State) (o : Out) : (emit s o).time = s.time := rfl
@[simp] theorem emit_wq (s : State) (o : Out) : (emit s o).wq = s.wq := rfl
@[simp] theorem emit_dry (s : State) (o : Out) : (emit s o).dry = s.dry := rfl
@[simp] theorem emit_cores (s : State) (o : Out) : (emit s o).cores = s.cores := rfl
@[simp] theorem emit_cph (s : State) (o : Out) : (emit s o).cph = s.cph := rfl
@[simp] theorem emit_wove (s : State) (o : Out) : (emit s o).wove = s.wove := rfl
@[simp] theorem emit_boot (s : State) (o : Out) : (emit s o).boot = s.boot := rfl
@[simp] theorem emit_memc (s : State) (o : Out) : (emit s o).memc = s.memc := rfl

/-! ### modFn -/

@[simp] theorem modFn_pending (s : State) (k : Nat) (f : Fn → Fn) : (modFn s k f).pending = s.pending := rfl
@[simp] theorem modFn_variant (s : State) (k : Nat) (f : Fn → Fn) : (modFn s k f).variant = s.variant := rfl
@[simp] theorem modFn_power (s : State) (k : Nat) (f : Fn → Fn) : (modFn s k f).power = s.power := rfl
@[simp] theorem modFn_deviceTime (s : State) (k : Nat) (f : Fn → Fn) : (modFn s k f).deviceTime = s.deviceTime := rfl
@[simp] theorem modFn_fresh (s : State) (k : Nat) (f : Fn → Fn) : (modFn s k f).fresh = s.fresh := rfl
@[simp] theorem modFn_regs (s : State) (k : Nat) (f : Fn → Fn) : (modFn s k f).regs = s.regs := rfl
@[simp] theorem modFn_readLatch (s : State) (k : Nat) (f : Fn → Fn) : (modFn s k f).readLatch = s.readLatch := rfl
@[simp] theorem modFn_writeLatch (s : State) (k : Nat) (f : Fn → Fn) : (modFn s k f).writeLatch = s.writeLatch := rfl
@[simp] theorem modFn_out (s : State) (k : Nat) (f : Fn → Fn) : (modFn s k f).out = s.out := rfl
@[simp] theorem modFn_grade (s : State) (k : Nat) (f : Fn → Fn) : (modFn s k f).grade = s.grade := rfl
@[simp] theorem modFn_obs (s : State) (k : Nat) (f : Fn → Fn) : (modFn s k f).obs = s.obs := rfl
@[simp] theorem modFn_chans (s : State) (k : Nat) (f : Fn → Fn) : (modFn s k f).chans = s.chans := rfl
@[simp] theorem modFn_mem (s : State) (k : Nat) (f : Fn → Fn) : (modFn s k f).mem = s.mem := rfl
@[simp] theorem modFn_pkt (s : State) (k : Nat) (f : Fn → Fn) : (modFn s k f).pkt = s.pkt := rfl
@[simp] theorem modFn_time (s : State) (k : Nat) (f : Fn → Fn) : (modFn s k f).time = s.time := rfl
@[simp] theorem modFn_wq (s : State) (k : Nat) (f : Fn → Fn) : (modFn s k f).wq = s.wq := rfl
@[simp] theorem modFn_dry (s : State) (k : Nat) (f : Fn → Fn) : (modFn s k f).dry = s.dry := rfl
@[simp] theorem modFn_cores (s : State) (k : Nat) (f : Fn → Fn) : (modFn s k f).cores = s.cores := rfl
@[simp] theorem modFn_cph (s : State) (k : Nat) (f : Fn → Fn) : (modFn s k f).cph = s.cph := rfl
@[simp] theorem modFn_wove (s : State) (k : Nat) (f : Fn → Fn) : (modFn s k f).wove = s.wove := rfl
@[simp] theorem modFn_boot (s : State) (k : Nat) (f : Fn → Fn) : (modFn s k f).boot = s.boot := rfl
@[simp] theorem modFn_memc (s : State) (k : Nat) (f : Fn → Fn) : (modFn s k f).memc = s.memc := rfl

/-! ### modLink -/

@[simp] theorem modLink_pending (s : State) (k : Nat) (f : Link → Link) : (modLink s k f).pending = s.pending := rfl
@[simp] theorem modLink_variant (s : State) (k : Nat) (f : Link → Link) : (modLink s k f).variant = s.variant := rfl
@[simp] theorem modLink_power (s : State) (k : Nat) (f : Link → Link) : (modLink s k f).power = s.power := rfl
@[simp] theorem modLink_deviceTime (s : State) (k : Nat) (f : Link → Link) : (modLink s k f).deviceTime = s.deviceTime := rfl
@[simp] theorem modLink_fresh (s : State) (k : Nat) (f : Link → Link) : (modLink s k f).fresh = s.fresh := rfl
@[simp] theorem modLink_regs (s : State) (k : Nat) (f : Link → Link) : (modLink s k f).regs = s.regs := rfl
@[simp] theorem modLink_readLatch (s : State) (k : Nat) (f : Link → Link) : (modLink s k f).readLatch = s.readLatch := rfl
@[simp] theorem modLink_writeLatch (s : State) (k : Nat) (f : Link → Link) : (modLink s k f).writeLatch = s.writeLatch := rfl
@[simp] theorem modLink_out (s : State) (k : Nat) (f : Link → Link) : (modLink s k f).out = s.out := rfl
@[simp] theorem modLink_grade (s : State) (k : Nat) (f : Link → Link) : (modLink s k f).grade = s.grade := rfl
@[simp] theorem modLink_obs (s : State) (k : Nat) (f : Link → Link) : (modLink s k f).obs = s.obs := rfl
@[simp] theorem modLink_chans (s : State) (k : Nat) (f : Link → Link) : (modLink s k f).chans = s.chans := rfl
@[simp] theorem modLink_mem (s : State) (k : Nat) (f : Link → Link) : (modLink s k f).mem = s.mem := rfl
@[simp] theorem modLink_pkt (s : State) (k : Nat) (f : Link → Link) : (modLink s k f).pkt = s.pkt := rfl
@[simp] theorem modLink_time (s : State) (k : Nat) (f : Link → Link) : (modLink s k f).time = s.time := rfl
@[simp] theorem modLink_wq (s : State) (k : Nat) (f : Link → Link) : (modLink s k f).wq = s.wq := rfl
@[simp] theorem modLink_dry (s : State) (k : Nat) (f : Link → Link) : (modLink s k f).dry = s.dry := rfl
@[simp] theorem modLink_cores (s : State) (k : Nat) (f : Link → Link) : (modLink s k f).cores = s.cores := rfl
@[simp] theorem modLink_cph (s : State) (k : Nat) (f : Link → Link) : (modLink s k f).cph = s.cph := rfl
@[simp] theorem modLink_wove (s : State) (k : Nat) (f : Link → Link) : (modLink s k f).wove = s.wove := rfl
@[simp] theorem modLink_boot (s : State) (k : Nat) (f : Link → Link) : (modLink s k f).boot = s.boot := rfl
@[simp] theorem modLink_memc (s : State) (k : Nat) (f : Link → Link) : (modLink s k f).memc = s.memc := rfl

/-! ### modChan -/

@[simp] theorem modChan_pending (s : State) (k : Nat) (f : Channel → Channel) : (modChan s k f).pending = s.pending := rfl
@[simp] theorem modChan_variant (s : State) (k : Nat) (f : Channel → Channel) : (modChan s k f).variant = s.variant := rfl
@[simp] theorem modChan_power (s : State) (k : Nat) (f : Channel → Channel) : (modChan s k f).power = s.power := rfl
@[simp] theorem modChan_deviceTime (s : State) (k : Nat) (f : Channel → Channel) : (modChan s k f).deviceTime = s.deviceTime := rfl
@[simp] theorem modChan_fresh (s : State) (k : Nat) (f : Channel → Channel) : (modChan s k f).fresh = s.fresh := rfl
@[simp] theorem modChan_regs (s : State) (k : Nat) (f : Channel → Channel) : (modChan s k f).regs = s.regs := rfl
@[simp] theorem modChan_readLatch (s : State) (k : Nat) (f : Channel → Channel) : (modChan s k f).readLatch = s.readLatch := rfl
@[simp] theorem modChan_writeLatch (s : State) (k : Nat) (f : Channel → Channel) : (modChan s k f).writeLatch = s.writeLatch := rfl
@[simp] theorem modChan_out (s : State) (k : Nat) (f : Channel → Channel) : (modChan s k f).out = s.out := rfl
@[simp] theorem modChan_grade (s : State) (k : Nat) (f : Channel → Channel) : (modChan s k f).grade = s.grade := rfl
@[simp] theorem modChan_obs (s : State) (k : Nat) (f : Channel → Channel) : (modChan s k f).obs = s.obs := rfl
@[simp] theorem modChan_host (s : State) (k : Nat) (f : Channel → Channel) : (modChan s k f).host = s.host := rfl
@[simp] theorem modChan_mem (s : State) (k : Nat) (f : Channel → Channel) : (modChan s k f).mem = s.mem := rfl
@[simp] theorem modChan_pkt (s : State) (k : Nat) (f : Channel → Channel) : (modChan s k f).pkt = s.pkt := rfl
@[simp] theorem modChan_time (s : State) (k : Nat) (f : Channel → Channel) : (modChan s k f).time = s.time := rfl
@[simp] theorem modChan_wq (s : State) (k : Nat) (f : Channel → Channel) : (modChan s k f).wq = s.wq := rfl
@[simp] theorem modChan_dry (s : State) (k : Nat) (f : Channel → Channel) : (modChan s k f).dry = s.dry := rfl
@[simp] theorem modChan_cores (s : State) (k : Nat) (f : Channel → Channel) : (modChan s k f).cores = s.cores := rfl
@[simp] theorem modChan_cph (s : State) (k : Nat) (f : Channel → Channel) : (modChan s k f).cph = s.cph := rfl
@[simp] theorem modChan_wove (s : State) (k : Nat) (f : Channel → Channel) : (modChan s k f).wove = s.wove := rfl
@[simp] theorem modChan_boot (s : State) (k : Nat) (f : Channel → Channel) : (modChan s k f).boot = s.boot := rfl
@[simp] theorem modChan_memc (s : State) (k : Nat) (f : Channel → Channel) : (modChan s k f).memc = s.memc := rfl

/-! ### modPort -/

@[simp] theorem modPort_pending (s : State) (k : Nat) (f : Port → Port) : (modPort s k f).pending = s.pending := rfl
@[simp] theorem modPort_variant (s : State) (k : Nat) (f : Port → Port) : (modPort s k f).variant = s.variant := rfl
@[simp] theorem modPort_power (s : State) (k : Nat) (f : Port → Port) : (modPort s k f).power = s.power := rfl
@[simp] theorem modPort_deviceTime (s : State) (k : Nat) (f : Port → Port) : (modPort s k f).deviceTime = s.deviceTime := rfl
@[simp] theorem modPort_fresh (s : State) (k : Nat) (f : Port → Port) : (modPort s k f).fresh = s.fresh := rfl
@[simp] theorem modPort_regs (s : State) (k : Nat) (f : Port → Port) : (modPort s k f).regs = s.regs := rfl
@[simp] theorem modPort_readLatch (s : State) (k : Nat) (f : Port → Port) : (modPort s k f).readLatch = s.readLatch := rfl
@[simp] theorem modPort_writeLatch (s : State) (k : Nat) (f : Port → Port) : (modPort s k f).writeLatch = s.writeLatch := rfl
@[simp] theorem modPort_out (s : State) (k : Nat) (f : Port → Port) : (modPort s k f).out = s.out := rfl
@[simp] theorem modPort_grade (s : State) (k : Nat) (f : Port → Port) : (modPort s k f).grade = s.grade := rfl
@[simp] theorem modPort_obs (s : State) (k : Nat) (f : Port → Port) : (modPort s k f).obs = s.obs := rfl
@[simp] theorem modPort_host (s : State) (k : Nat) (f : Port → Port) : (modPort s k f).host = s.host := rfl
@[simp] theorem modPort_chans (s : State) (k : Nat) (f : Port → Port) : (modPort s k f).chans = s.chans := rfl
@[simp] theorem modPort_mem (s : State) (k : Nat) (f : Port → Port) : (modPort s k f).mem = s.mem := rfl
@[simp] theorem modPort_time (s : State) (k : Nat) (f : Port → Port) : (modPort s k f).time = s.time := rfl
@[simp] theorem modPort_wq (s : State) (k : Nat) (f : Port → Port) : (modPort s k f).wq = s.wq := rfl
@[simp] theorem modPort_dry (s : State) (k : Nat) (f : Port → Port) : (modPort s k f).dry = s.dry := rfl
@[simp] theorem modPort_cores (s : State) (k : Nat) (f : Port → Port) : (modPort s k f).cores = s.cores := rfl
@[simp] theorem modPort_cph (s : State) (k : Nat) (f : Port → Port) : (modPort s k f).cph = s.cph := rfl
@[simp] theorem modPort_wove (s : State) (k : Nat) (f : Port → Port) : (modPort s k f).wove = s.wove := rfl
@[simp] theorem modPort_boot (s : State) (k : Nat) (f : Port → Port) : (modPort s k f).boot = s.boot := rfl
@[simp] theorem modPort_memc (s : State) (k : Nat) (f : Port → Port) : (modPort s k f).memc = s.memc := rfl

/-! ### modPhc -/

@[simp] theorem modPhc_pending (s : State) (k : Nat) (f : Phc → Phc) : (modPhc s k f).pending = s.pending := rfl
@[simp] theorem modPhc_variant (s : State) (k : Nat) (f : Phc → Phc) : (modPhc s k f).variant = s.variant := rfl
@[simp] theorem modPhc_power (s : State) (k : Nat) (f : Phc → Phc) : (modPhc s k f).power = s.power := rfl
@[simp] theorem modPhc_deviceTime (s : State) (k : Nat) (f : Phc → Phc) : (modPhc s k f).deviceTime = s.deviceTime := rfl
@[simp] theorem modPhc_fresh (s : State) (k : Nat) (f : Phc → Phc) : (modPhc s k f).fresh = s.fresh := rfl
@[simp] theorem modPhc_regs (s : State) (k : Nat) (f : Phc → Phc) : (modPhc s k f).regs = s.regs := rfl
@[simp] theorem modPhc_readLatch (s : State) (k : Nat) (f : Phc → Phc) : (modPhc s k f).readLatch = s.readLatch := rfl
@[simp] theorem modPhc_writeLatch (s : State) (k : Nat) (f : Phc → Phc) : (modPhc s k f).writeLatch = s.writeLatch := rfl
@[simp] theorem modPhc_out (s : State) (k : Nat) (f : Phc → Phc) : (modPhc s k f).out = s.out := rfl
@[simp] theorem modPhc_grade (s : State) (k : Nat) (f : Phc → Phc) : (modPhc s k f).grade = s.grade := rfl
@[simp] theorem modPhc_obs (s : State) (k : Nat) (f : Phc → Phc) : (modPhc s k f).obs = s.obs := rfl
@[simp] theorem modPhc_host (s : State) (k : Nat) (f : Phc → Phc) : (modPhc s k f).host = s.host := rfl
@[simp] theorem modPhc_chans (s : State) (k : Nat) (f : Phc → Phc) : (modPhc s k f).chans = s.chans := rfl
@[simp] theorem modPhc_mem (s : State) (k : Nat) (f : Phc → Phc) : (modPhc s k f).mem = s.mem := rfl
@[simp] theorem modPhc_pkt (s : State) (k : Nat) (f : Phc → Phc) : (modPhc s k f).pkt = s.pkt := rfl
@[simp] theorem modPhc_wq (s : State) (k : Nat) (f : Phc → Phc) : (modPhc s k f).wq = s.wq := rfl
@[simp] theorem modPhc_dry (s : State) (k : Nat) (f : Phc → Phc) : (modPhc s k f).dry = s.dry := rfl
@[simp] theorem modPhc_cores (s : State) (k : Nat) (f : Phc → Phc) : (modPhc s k f).cores = s.cores := rfl
@[simp] theorem modPhc_cph (s : State) (k : Nat) (f : Phc → Phc) : (modPhc s k f).cph = s.cph := rfl
@[simp] theorem modPhc_wove (s : State) (k : Nat) (f : Phc → Phc) : (modPhc s k f).wove = s.wove := rfl
@[simp] theorem modPhc_boot (s : State) (k : Nat) (f : Phc → Phc) : (modPhc s k f).boot = s.boot := rfl
@[simp] theorem modPhc_memc (s : State) (k : Nat) (f : Phc → Phc) : (modPhc s k f).memc = s.memc := rfl

/-! ### modTrig -/

@[simp] theorem modTrig_pending (s : State) (k : Nat) (f : TrigSlot → TrigSlot) : (modTrig s k f).pending = s.pending := rfl
@[simp] theorem modTrig_variant (s : State) (k : Nat) (f : TrigSlot → TrigSlot) : (modTrig s k f).variant = s.variant := rfl
@[simp] theorem modTrig_power (s : State) (k : Nat) (f : TrigSlot → TrigSlot) : (modTrig s k f).power = s.power := rfl
@[simp] theorem modTrig_deviceTime (s : State) (k : Nat) (f : TrigSlot → TrigSlot) : (modTrig s k f).deviceTime = s.deviceTime := rfl
@[simp] theorem modTrig_fresh (s : State) (k : Nat) (f : TrigSlot → TrigSlot) : (modTrig s k f).fresh = s.fresh := rfl
@[simp] theorem modTrig_regs (s : State) (k : Nat) (f : TrigSlot → TrigSlot) : (modTrig s k f).regs = s.regs := rfl
@[simp] theorem modTrig_readLatch (s : State) (k : Nat) (f : TrigSlot → TrigSlot) : (modTrig s k f).readLatch = s.readLatch := rfl
@[simp] theorem modTrig_writeLatch (s : State) (k : Nat) (f : TrigSlot → TrigSlot) : (modTrig s k f).writeLatch = s.writeLatch := rfl
@[simp] theorem modTrig_out (s : State) (k : Nat) (f : TrigSlot → TrigSlot) : (modTrig s k f).out = s.out := rfl
@[simp] theorem modTrig_grade (s : State) (k : Nat) (f : TrigSlot → TrigSlot) : (modTrig s k f).grade = s.grade := rfl
@[simp] theorem modTrig_obs (s : State) (k : Nat) (f : TrigSlot → TrigSlot) : (modTrig s k f).obs = s.obs := rfl
@[simp] theorem modTrig_host (s : State) (k : Nat) (f : TrigSlot → TrigSlot) : (modTrig s k f).host = s.host := rfl
@[simp] theorem modTrig_chans (s : State) (k : Nat) (f : TrigSlot → TrigSlot) : (modTrig s k f).chans = s.chans := rfl
@[simp] theorem modTrig_mem (s : State) (k : Nat) (f : TrigSlot → TrigSlot) : (modTrig s k f).mem = s.mem := rfl
@[simp] theorem modTrig_pkt (s : State) (k : Nat) (f : TrigSlot → TrigSlot) : (modTrig s k f).pkt = s.pkt := rfl
@[simp] theorem modTrig_wq (s : State) (k : Nat) (f : TrigSlot → TrigSlot) : (modTrig s k f).wq = s.wq := rfl
@[simp] theorem modTrig_dry (s : State) (k : Nat) (f : TrigSlot → TrigSlot) : (modTrig s k f).dry = s.dry := rfl
@[simp] theorem modTrig_cores (s : State) (k : Nat) (f : TrigSlot → TrigSlot) : (modTrig s k f).cores = s.cores := rfl
@[simp] theorem modTrig_cph (s : State) (k : Nat) (f : TrigSlot → TrigSlot) : (modTrig s k f).cph = s.cph := rfl
@[simp] theorem modTrig_wove (s : State) (k : Nat) (f : TrigSlot → TrigSlot) : (modTrig s k f).wove = s.wove := rfl
@[simp] theorem modTrig_boot (s : State) (k : Nat) (f : TrigSlot → TrigSlot) : (modTrig s k f).boot = s.boot := rfl
@[simp] theorem modTrig_memc (s : State) (k : Nat) (f : TrigSlot → TrigSlot) : (modTrig s k f).memc = s.memc := rfl

/-! ### modRing -/

@[simp] theorem modRing_pending (s : State) (f : RingState → RingState) : (modRing s f).pending = s.pending := rfl
@[simp] theorem modRing_variant (s : State) (f : RingState → RingState) : (modRing s f).variant = s.variant := rfl
@[simp] theorem modRing_power (s : State) (f : RingState → RingState) : (modRing s f).power = s.power := rfl
@[simp] theorem modRing_deviceTime (s : State) (f : RingState → RingState) : (modRing s f).deviceTime = s.deviceTime := rfl
@[simp] theorem modRing_fresh (s : State) (f : RingState → RingState) : (modRing s f).fresh = s.fresh := rfl
@[simp] theorem modRing_regs (s : State) (f : RingState → RingState) : (modRing s f).regs = s.regs := rfl
@[simp] theorem modRing_readLatch (s : State) (f : RingState → RingState) : (modRing s f).readLatch = s.readLatch := rfl
@[simp] theorem modRing_writeLatch (s : State) (f : RingState → RingState) : (modRing s f).writeLatch = s.writeLatch := rfl
@[simp] theorem modRing_out (s : State) (f : RingState → RingState) : (modRing s f).out = s.out := rfl
@[simp] theorem modRing_grade (s : State) (f : RingState → RingState) : (modRing s f).grade = s.grade := rfl
@[simp] theorem modRing_obs (s : State) (f : RingState → RingState) : (modRing s f).obs = s.obs := rfl
@[simp] theorem modRing_host (s : State) (f : RingState → RingState) : (modRing s f).host = s.host := rfl
@[simp] theorem modRing_chans (s : State) (f : RingState → RingState) : (modRing s f).chans = s.chans := rfl
@[simp] theorem modRing_mem (s : State) (f : RingState → RingState) : (modRing s f).mem = s.mem := rfl
@[simp] theorem modRing_pkt (s : State) (f : RingState → RingState) : (modRing s f).pkt = s.pkt := rfl
@[simp] theorem modRing_wq (s : State) (f : RingState → RingState) : (modRing s f).wq = s.wq := rfl
@[simp] theorem modRing_dry (s : State) (f : RingState → RingState) : (modRing s f).dry = s.dry := rfl
@[simp] theorem modRing_cores (s : State) (f : RingState → RingState) : (modRing s f).cores = s.cores := rfl
@[simp] theorem modRing_cph (s : State) (f : RingState → RingState) : (modRing s f).cph = s.cph := rfl
@[simp] theorem modRing_wove (s : State) (f : RingState → RingState) : (modRing s f).wove = s.wove := rfl
@[simp] theorem modRing_boot (s : State) (f : RingState → RingState) : (modRing s f).boot = s.boot := rfl
@[simp] theorem modRing_memc (s : State) (f : RingState → RingState) : (modRing s f).memc = s.memc := rfl

/-! ### modCore -/

@[simp] theorem modCore_pending (s : State) (k : Nat) (f : Core → Core) : (modCore s k f).pending = s.pending := rfl
@[simp] theorem modCore_variant (s : State) (k : Nat) (f : Core → Core) : (modCore s k f).variant = s.variant := rfl
@[simp] theorem modCore_power (s : State) (k : Nat) (f : Core → Core) : (modCore s k f).power = s.power := rfl
@[simp] theorem modCore_deviceTime (s : State) (k : Nat) (f : Core → Core) : (modCore s k f).deviceTime = s.deviceTime := rfl
@[simp] theorem modCore_fresh (s : State) (k : Nat) (f : Core → Core) : (modCore s k f).fresh = s.fresh := rfl
@[simp] theorem modCore_regs (s : State) (k : Nat) (f : Core → Core) : (modCore s k f).regs = s.regs := rfl
@[simp] theorem modCore_readLatch (s : State) (k : Nat) (f : Core → Core) : (modCore s k f).readLatch = s.readLatch := rfl
@[simp] theorem modCore_writeLatch (s : State) (k : Nat) (f : Core → Core) : (modCore s k f).writeLatch = s.writeLatch := rfl
@[simp] theorem modCore_out (s : State) (k : Nat) (f : Core → Core) : (modCore s k f).out = s.out := rfl
@[simp] theorem modCore_grade (s : State) (k : Nat) (f : Core → Core) : (modCore s k f).grade = s.grade := rfl
@[simp] theorem modCore_obs (s : State) (k : Nat) (f : Core → Core) : (modCore s k f).obs = s.obs := rfl
@[simp] theorem modCore_host (s : State) (k : Nat) (f : Core → Core) : (modCore s k f).host = s.host := rfl
@[simp] theorem modCore_chans (s : State) (k : Nat) (f : Core → Core) : (modCore s k f).chans = s.chans := rfl
@[simp] theorem modCore_mem (s : State) (k : Nat) (f : Core → Core) : (modCore s k f).mem = s.mem := rfl
@[simp] theorem modCore_pkt (s : State) (k : Nat) (f : Core → Core) : (modCore s k f).pkt = s.pkt := rfl
@[simp] theorem modCore_time (s : State) (k : Nat) (f : Core → Core) : (modCore s k f).time = s.time := rfl
@[simp] theorem modCore_wq (s : State) (k : Nat) (f : Core → Core) : (modCore s k f).wq = s.wq := rfl
@[simp] theorem modCore_dry (s : State) (k : Nat) (f : Core → Core) : (modCore s k f).dry = s.dry := rfl
@[simp] theorem modCore_cph (s : State) (k : Nat) (f : Core → Core) : (modCore s k f).cph = s.cph := rfl
@[simp] theorem modCore_wove (s : State) (k : Nat) (f : Core → Core) : (modCore s k f).wove = s.wove := rfl
@[simp] theorem modCore_boot (s : State) (k : Nat) (f : Core → Core) : (modCore s k f).boot = s.boot := rfl
@[simp] theorem modCore_memc (s : State) (k : Nat) (f : Core → Core) : (modCore s k f).memc = s.memc := rfl

/-! ### modThread -/

@[simp] theorem modThread_pending (s : State) (c k : Nat) (f : Thread → Thread) : (modThread s c k f).pending = s.pending := rfl
@[simp] theorem modThread_variant (s : State) (c k : Nat) (f : Thread → Thread) : (modThread s c k f).variant = s.variant := rfl
@[simp] theorem modThread_power (s : State) (c k : Nat) (f : Thread → Thread) : (modThread s c k f).power = s.power := rfl
@[simp] theorem modThread_deviceTime (s : State) (c k : Nat) (f : Thread → Thread) : (modThread s c k f).deviceTime = s.deviceTime := rfl
@[simp] theorem modThread_fresh (s : State) (c k : Nat) (f : Thread → Thread) : (modThread s c k f).fresh = s.fresh := rfl
@[simp] theorem modThread_regs (s : State) (c k : Nat) (f : Thread → Thread) : (modThread s c k f).regs = s.regs := rfl
@[simp] theorem modThread_readLatch (s : State) (c k : Nat) (f : Thread → Thread) : (modThread s c k f).readLatch = s.readLatch := rfl
@[simp] theorem modThread_writeLatch (s : State) (c k : Nat) (f : Thread → Thread) : (modThread s c k f).writeLatch = s.writeLatch := rfl
@[simp] theorem modThread_out (s : State) (c k : Nat) (f : Thread → Thread) : (modThread s c k f).out = s.out := rfl
@[simp] theorem modThread_grade (s : State) (c k : Nat) (f : Thread → Thread) : (modThread s c k f).grade = s.grade := rfl
@[simp] theorem modThread_obs (s : State) (c k : Nat) (f : Thread → Thread) : (modThread s c k f).obs = s.obs := rfl
@[simp] theorem modThread_host (s : State) (c k : Nat) (f : Thread → Thread) : (modThread s c k f).host = s.host := rfl
@[simp] theorem modThread_chans (s : State) (c k : Nat) (f : Thread → Thread) : (modThread s c k f).chans = s.chans := rfl
@[simp] theorem modThread_mem (s : State) (c k : Nat) (f : Thread → Thread) : (modThread s c k f).mem = s.mem := rfl
@[simp] theorem modThread_pkt (s : State) (c k : Nat) (f : Thread → Thread) : (modThread s c k f).pkt = s.pkt := rfl
@[simp] theorem modThread_time (s : State) (c k : Nat) (f : Thread → Thread) : (modThread s c k f).time = s.time := rfl
@[simp] theorem modThread_wq (s : State) (c k : Nat) (f : Thread → Thread) : (modThread s c k f).wq = s.wq := rfl
@[simp] theorem modThread_dry (s : State) (c k : Nat) (f : Thread → Thread) : (modThread s c k f).dry = s.dry := rfl
@[simp] theorem modThread_cph (s : State) (c k : Nat) (f : Thread → Thread) : (modThread s c k f).cph = s.cph := rfl
@[simp] theorem modThread_wove (s : State) (c k : Nat) (f : Thread → Thread) : (modThread s c k f).wove = s.wove := rfl
@[simp] theorem modThread_boot (s : State) (c k : Nat) (f : Thread → Thread) : (modThread s c k f).boot = s.boot := rfl
@[simp] theorem modThread_memc (s : State) (c k : Nat) (f : Thread → Thread) : (modThread s c k f).memc = s.memc := rfl

/-! ### modHart -/

@[simp] theorem modHart_pending (s : State) (h : Nat) (f : Thread → Thread) : (modHart s h f).pending = s.pending := rfl
@[simp] theorem modHart_variant (s : State) (h : Nat) (f : Thread → Thread) : (modHart s h f).variant = s.variant := rfl
@[simp] theorem modHart_power (s : State) (h : Nat) (f : Thread → Thread) : (modHart s h f).power = s.power := rfl
@[simp] theorem modHart_deviceTime (s : State) (h : Nat) (f : Thread → Thread) : (modHart s h f).deviceTime = s.deviceTime := rfl
@[simp] theorem modHart_fresh (s : State) (h : Nat) (f : Thread → Thread) : (modHart s h f).fresh = s.fresh := rfl
@[simp] theorem modHart_regs (s : State) (h : Nat) (f : Thread → Thread) : (modHart s h f).regs = s.regs := rfl
@[simp] theorem modHart_readLatch (s : State) (h : Nat) (f : Thread → Thread) : (modHart s h f).readLatch = s.readLatch := rfl
@[simp] theorem modHart_writeLatch (s : State) (h : Nat) (f : Thread → Thread) : (modHart s h f).writeLatch = s.writeLatch := rfl
@[simp] theorem modHart_out (s : State) (h : Nat) (f : Thread → Thread) : (modHart s h f).out = s.out := rfl
@[simp] theorem modHart_grade (s : State) (h : Nat) (f : Thread → Thread) : (modHart s h f).grade = s.grade := rfl
@[simp] theorem modHart_obs (s : State) (h : Nat) (f : Thread → Thread) : (modHart s h f).obs = s.obs := rfl
@[simp] theorem modHart_host (s : State) (h : Nat) (f : Thread → Thread) : (modHart s h f).host = s.host := rfl
@[simp] theorem modHart_chans (s : State) (h : Nat) (f : Thread → Thread) : (modHart s h f).chans = s.chans := rfl
@[simp] theorem modHart_mem (s : State) (h : Nat) (f : Thread → Thread) : (modHart s h f).mem = s.mem := rfl
@[simp] theorem modHart_pkt (s : State) (h : Nat) (f : Thread → Thread) : (modHart s h f).pkt = s.pkt := rfl
@[simp] theorem modHart_time (s : State) (h : Nat) (f : Thread → Thread) : (modHart s h f).time = s.time := rfl
@[simp] theorem modHart_wq (s : State) (h : Nat) (f : Thread → Thread) : (modHart s h f).wq = s.wq := rfl
@[simp] theorem modHart_dry (s : State) (h : Nat) (f : Thread → Thread) : (modHart s h f).dry = s.dry := rfl
@[simp] theorem modHart_cph (s : State) (h : Nat) (f : Thread → Thread) : (modHart s h f).cph = s.cph := rfl
@[simp] theorem modHart_wove (s : State) (h : Nat) (f : Thread → Thread) : (modHart s h f).wove = s.wove := rfl
@[simp] theorem modHart_boot (s : State) (h : Nat) (f : Thread → Thread) : (modHart s h f).boot = s.boot := rfl
@[simp] theorem modHart_memc (s : State) (h : Nat) (f : Thread → Thread) : (modHart s h f).memc = s.memc := rfl

/-! ### modSa -/

@[simp] theorem modSa_pending (s : State) (k : Nat) (f : Sa → Sa) : (modSa s k f).pending = s.pending := rfl
@[simp] theorem modSa_variant (s : State) (k : Nat) (f : Sa → Sa) : (modSa s k f).variant = s.variant := rfl
@[simp] theorem modSa_power (s : State) (k : Nat) (f : Sa → Sa) : (modSa s k f).power = s.power := rfl
@[simp] theorem modSa_deviceTime (s : State) (k : Nat) (f : Sa → Sa) : (modSa s k f).deviceTime = s.deviceTime := rfl
@[simp] theorem modSa_fresh (s : State) (k : Nat) (f : Sa → Sa) : (modSa s k f).fresh = s.fresh := rfl
@[simp] theorem modSa_regs (s : State) (k : Nat) (f : Sa → Sa) : (modSa s k f).regs = s.regs := rfl
@[simp] theorem modSa_readLatch (s : State) (k : Nat) (f : Sa → Sa) : (modSa s k f).readLatch = s.readLatch := rfl
@[simp] theorem modSa_writeLatch (s : State) (k : Nat) (f : Sa → Sa) : (modSa s k f).writeLatch = s.writeLatch := rfl
@[simp] theorem modSa_out (s : State) (k : Nat) (f : Sa → Sa) : (modSa s k f).out = s.out := rfl
@[simp] theorem modSa_grade (s : State) (k : Nat) (f : Sa → Sa) : (modSa s k f).grade = s.grade := rfl
@[simp] theorem modSa_obs (s : State) (k : Nat) (f : Sa → Sa) : (modSa s k f).obs = s.obs := rfl
@[simp] theorem modSa_host (s : State) (k : Nat) (f : Sa → Sa) : (modSa s k f).host = s.host := rfl
@[simp] theorem modSa_chans (s : State) (k : Nat) (f : Sa → Sa) : (modSa s k f).chans = s.chans := rfl
@[simp] theorem modSa_mem (s : State) (k : Nat) (f : Sa → Sa) : (modSa s k f).mem = s.mem := rfl
@[simp] theorem modSa_pkt (s : State) (k : Nat) (f : Sa → Sa) : (modSa s k f).pkt = s.pkt := rfl
@[simp] theorem modSa_time (s : State) (k : Nat) (f : Sa → Sa) : (modSa s k f).time = s.time := rfl
@[simp] theorem modSa_wq (s : State) (k : Nat) (f : Sa → Sa) : (modSa s k f).wq = s.wq := rfl
@[simp] theorem modSa_dry (s : State) (k : Nat) (f : Sa → Sa) : (modSa s k f).dry = s.dry := rfl
@[simp] theorem modSa_cores (s : State) (k : Nat) (f : Sa → Sa) : (modSa s k f).cores = s.cores := rfl
@[simp] theorem modSa_wove (s : State) (k : Nat) (f : Sa → Sa) : (modSa s k f).wove = s.wove := rfl
@[simp] theorem modSa_boot (s : State) (k : Nat) (f : Sa → Sa) : (modSa s k f).boot = s.boot := rfl
@[simp] theorem modSa_memc (s : State) (k : Nat) (f : Sa → Sa) : (modSa s k f).memc = s.memc := rfl

/-! ### modSrc -/

@[simp] theorem modSrc_pending (s : State) (k : Nat) (f : TraceSrc → TraceSrc) : (modSrc s k f).pending = s.pending := rfl
@[simp] theorem modSrc_variant (s : State) (k : Nat) (f : TraceSrc → TraceSrc) : (modSrc s k f).variant = s.variant := rfl
@[simp] theorem modSrc_power (s : State) (k : Nat) (f : TraceSrc → TraceSrc) : (modSrc s k f).power = s.power := rfl
@[simp] theorem modSrc_deviceTime (s : State) (k : Nat) (f : TraceSrc → TraceSrc) : (modSrc s k f).deviceTime = s.deviceTime := rfl
@[simp] theorem modSrc_fresh (s : State) (k : Nat) (f : TraceSrc → TraceSrc) : (modSrc s k f).fresh = s.fresh := rfl
@[simp] theorem modSrc_regs (s : State) (k : Nat) (f : TraceSrc → TraceSrc) : (modSrc s k f).regs = s.regs := rfl
@[simp] theorem modSrc_readLatch (s : State) (k : Nat) (f : TraceSrc → TraceSrc) : (modSrc s k f).readLatch = s.readLatch := rfl
@[simp] theorem modSrc_writeLatch (s : State) (k : Nat) (f : TraceSrc → TraceSrc) : (modSrc s k f).writeLatch = s.writeLatch := rfl
@[simp] theorem modSrc_out (s : State) (k : Nat) (f : TraceSrc → TraceSrc) : (modSrc s k f).out = s.out := rfl
@[simp] theorem modSrc_grade (s : State) (k : Nat) (f : TraceSrc → TraceSrc) : (modSrc s k f).grade = s.grade := rfl
@[simp] theorem modSrc_host (s : State) (k : Nat) (f : TraceSrc → TraceSrc) : (modSrc s k f).host = s.host := rfl
@[simp] theorem modSrc_chans (s : State) (k : Nat) (f : TraceSrc → TraceSrc) : (modSrc s k f).chans = s.chans := rfl
@[simp] theorem modSrc_mem (s : State) (k : Nat) (f : TraceSrc → TraceSrc) : (modSrc s k f).mem = s.mem := rfl
@[simp] theorem modSrc_pkt (s : State) (k : Nat) (f : TraceSrc → TraceSrc) : (modSrc s k f).pkt = s.pkt := rfl
@[simp] theorem modSrc_time (s : State) (k : Nat) (f : TraceSrc → TraceSrc) : (modSrc s k f).time = s.time := rfl
@[simp] theorem modSrc_wq (s : State) (k : Nat) (f : TraceSrc → TraceSrc) : (modSrc s k f).wq = s.wq := rfl
@[simp] theorem modSrc_dry (s : State) (k : Nat) (f : TraceSrc → TraceSrc) : (modSrc s k f).dry = s.dry := rfl
@[simp] theorem modSrc_cores (s : State) (k : Nat) (f : TraceSrc → TraceSrc) : (modSrc s k f).cores = s.cores := rfl
@[simp] theorem modSrc_cph (s : State) (k : Nat) (f : TraceSrc → TraceSrc) : (modSrc s k f).cph = s.cph := rfl
@[simp] theorem modSrc_wove (s : State) (k : Nat) (f : TraceSrc → TraceSrc) : (modSrc s k f).wove = s.wove := rfl
@[simp] theorem modSrc_boot (s : State) (k : Nat) (f : TraceSrc → TraceSrc) : (modSrc s k f).boot = s.boot := rfl
@[simp] theorem modSrc_memc (s : State) (k : Nat) (f : TraceSrc → TraceSrc) : (modSrc s k f).memc = s.memc := rfl

/-! ### modModule -/

@[simp] theorem modModule_pending (s : State) (k : Nat) (f : Module → Module) : (modModule s k f).pending = s.pending := rfl
@[simp] theorem modModule_variant (s : State) (k : Nat) (f : Module → Module) : (modModule s k f).variant = s.variant := rfl
@[simp] theorem modModule_power (s : State) (k : Nat) (f : Module → Module) : (modModule s k f).power = s.power := rfl
@[simp] theorem modModule_deviceTime (s : State) (k : Nat) (f : Module → Module) : (modModule s k f).deviceTime = s.deviceTime := rfl
@[simp] theorem modModule_fresh (s : State) (k : Nat) (f : Module → Module) : (modModule s k f).fresh = s.fresh := rfl
@[simp] theorem modModule_regs (s : State) (k : Nat) (f : Module → Module) : (modModule s k f).regs = s.regs := rfl
@[simp] theorem modModule_readLatch (s : State) (k : Nat) (f : Module → Module) : (modModule s k f).readLatch = s.readLatch := rfl
@[simp] theorem modModule_writeLatch (s : State) (k : Nat) (f : Module → Module) : (modModule s k f).writeLatch = s.writeLatch := rfl
@[simp] theorem modModule_out (s : State) (k : Nat) (f : Module → Module) : (modModule s k f).out = s.out := rfl
@[simp] theorem modModule_grade (s : State) (k : Nat) (f : Module → Module) : (modModule s k f).grade = s.grade := rfl
@[simp] theorem modModule_obs (s : State) (k : Nat) (f : Module → Module) : (modModule s k f).obs = s.obs := rfl
@[simp] theorem modModule_host (s : State) (k : Nat) (f : Module → Module) : (modModule s k f).host = s.host := rfl
@[simp] theorem modModule_chans (s : State) (k : Nat) (f : Module → Module) : (modModule s k f).chans = s.chans := rfl
@[simp] theorem modModule_mem (s : State) (k : Nat) (f : Module → Module) : (modModule s k f).mem = s.mem := rfl
@[simp] theorem modModule_pkt (s : State) (k : Nat) (f : Module → Module) : (modModule s k f).pkt = s.pkt := rfl
@[simp] theorem modModule_time (s : State) (k : Nat) (f : Module → Module) : (modModule s k f).time = s.time := rfl
@[simp] theorem modModule_wq (s : State) (k : Nat) (f : Module → Module) : (modModule s k f).wq = s.wq := rfl
@[simp] theorem modModule_dry (s : State) (k : Nat) (f : Module → Module) : (modModule s k f).dry = s.dry := rfl
@[simp] theorem modModule_cores (s : State) (k : Nat) (f : Module → Module) : (modModule s k f).cores = s.cores := rfl
@[simp] theorem modModule_cph (s : State) (k : Nat) (f : Module → Module) : (modModule s k f).cph = s.cph := rfl
@[simp] theorem modModule_wove (s : State) (k : Nat) (f : Module → Module) : (modModule s k f).wove = s.wove := rfl
@[simp] theorem modModule_memc (s : State) (k : Nat) (f : Module → Module) : (modModule s k f).memc = s.memc := rfl

/-! ### modQ -/

@[simp] theorem modQ_pending (s : State) (k : Nat) (f : Queue → Queue) : (modQ s k f).pending = s.pending := by unfold modQ; split <;> rfl
@[simp] theorem modQ_variant (s : State) (k : Nat) (f : Queue → Queue) : (modQ s k f).variant = s.variant := by unfold modQ; split <;> rfl
@[simp] theorem modQ_power (s : State) (k : Nat) (f : Queue → Queue) : (modQ s k f).power = s.power := by unfold modQ; split <;> rfl
@[simp] theorem modQ_deviceTime (s : State) (k : Nat) (f : Queue → Queue) : (modQ s k f).deviceTime = s.deviceTime := by unfold modQ; split <;> rfl
@[simp] theorem modQ_fresh (s : State) (k : Nat) (f : Queue → Queue) : (modQ s k f).fresh = s.fresh := by unfold modQ; split <;> rfl
@[simp] theorem modQ_regs (s : State) (k : Nat) (f : Queue → Queue) : (modQ s k f).regs = s.regs := by unfold modQ; split <;> rfl
@[simp] theorem modQ_readLatch (s : State) (k : Nat) (f : Queue → Queue) : (modQ s k f).readLatch = s.readLatch := by unfold modQ; split <;> rfl
@[simp] theorem modQ_writeLatch (s : State) (k : Nat) (f : Queue → Queue) : (modQ s k f).writeLatch = s.writeLatch := by unfold modQ; split <;> rfl
@[simp] theorem modQ_out (s : State) (k : Nat) (f : Queue → Queue) : (modQ s k f).out = s.out := by unfold modQ; split <;> rfl
@[simp] theorem modQ_grade (s : State) (k : Nat) (f : Queue → Queue) : (modQ s k f).grade = s.grade := by unfold modQ; split <;> rfl
@[simp] theorem modQ_obs (s : State) (k : Nat) (f : Queue → Queue) : (modQ s k f).obs = s.obs := by unfold modQ; split <;> rfl
@[simp] theorem modQ_host (s : State) (k : Nat) (f : Queue → Queue) : (modQ s k f).host = s.host := by unfold modQ; split <;> rfl
@[simp] theorem modQ_chans (s : State) (k : Nat) (f : Queue → Queue) : (modQ s k f).chans = s.chans := by unfold modQ; split <;> rfl
@[simp] theorem modQ_mem (s : State) (k : Nat) (f : Queue → Queue) : (modQ s k f).mem = s.mem := by unfold modQ; split <;> rfl
@[simp] theorem modQ_pkt (s : State) (k : Nat) (f : Queue → Queue) : (modQ s k f).pkt = s.pkt := by unfold modQ; split <;> rfl
@[simp] theorem modQ_time (s : State) (k : Nat) (f : Queue → Queue) : (modQ s k f).time = s.time := by unfold modQ; split <;> rfl
@[simp] theorem modQ_dry (s : State) (k : Nat) (f : Queue → Queue) : (modQ s k f).dry = s.dry := by unfold modQ; split <;> rfl
@[simp] theorem modQ_cores (s : State) (k : Nat) (f : Queue → Queue) : (modQ s k f).cores = s.cores := by unfold modQ; split <;> rfl
@[simp] theorem modQ_cph (s : State) (k : Nat) (f : Queue → Queue) : (modQ s k f).cph = s.cph := by unfold modQ; split <;> rfl
@[simp] theorem modQ_wove (s : State) (k : Nat) (f : Queue → Queue) : (modQ s k f).wove = s.wove := by unfold modQ; split <;> rfl
@[simp] theorem modQ_boot (s : State) (k : Nat) (f : Queue → Queue) : (modQ s k f).boot = s.boot := by unfold modQ; split <;> rfl
@[simp] theorem modQ_memc (s : State) (k : Nat) (f : Queue → Queue) : (modQ s k f).memc = s.memc := by unfold modQ; split <;> rfl

/-! ### modCq -/

@[simp] theorem modCq_pending (s : State) (k : Nat) (f : Cq → Cq) : (modCq s k f).pending = s.pending := by unfold modCq; split <;> rfl
@[simp] theorem modCq_variant (s : State) (k : Nat) (f : Cq → Cq) : (modCq s k f).variant = s.variant := by unfold modCq; split <;> rfl
@[simp] theorem modCq_power (s : State) (k : Nat) (f : Cq → Cq) : (modCq s k f).power = s.power := by unfold modCq; split <;> rfl
@[simp] theorem modCq_deviceTime (s : State) (k : Nat) (f : Cq → Cq) : (modCq s k f).deviceTime = s.deviceTime := by unfold modCq; split <;> rfl
@[simp] theorem modCq_fresh (s : State) (k : Nat) (f : Cq → Cq) : (modCq s k f).fresh = s.fresh := by unfold modCq; split <;> rfl
@[simp] theorem modCq_regs (s : State) (k : Nat) (f : Cq → Cq) : (modCq s k f).regs = s.regs := by unfold modCq; split <;> rfl
@[simp] theorem modCq_readLatch (s : State) (k : Nat) (f : Cq → Cq) : (modCq s k f).readLatch = s.readLatch := by unfold modCq; split <;> rfl
@[simp] theorem modCq_writeLatch (s : State) (k : Nat) (f : Cq → Cq) : (modCq s k f).writeLatch = s.writeLatch := by unfold modCq; split <;> rfl
@[simp] theorem modCq_out (s : State) (k : Nat) (f : Cq → Cq) : (modCq s k f).out = s.out := by unfold modCq; split <;> rfl
@[simp] theorem modCq_grade (s : State) (k : Nat) (f : Cq → Cq) : (modCq s k f).grade = s.grade := by unfold modCq; split <;> rfl
@[simp] theorem modCq_obs (s : State) (k : Nat) (f : Cq → Cq) : (modCq s k f).obs = s.obs := by unfold modCq; split <;> rfl
@[simp] theorem modCq_host (s : State) (k : Nat) (f : Cq → Cq) : (modCq s k f).host = s.host := by unfold modCq; split <;> rfl
@[simp] theorem modCq_chans (s : State) (k : Nat) (f : Cq → Cq) : (modCq s k f).chans = s.chans := by unfold modCq; split <;> rfl
@[simp] theorem modCq_mem (s : State) (k : Nat) (f : Cq → Cq) : (modCq s k f).mem = s.mem := by unfold modCq; split <;> rfl
@[simp] theorem modCq_pkt (s : State) (k : Nat) (f : Cq → Cq) : (modCq s k f).pkt = s.pkt := by unfold modCq; split <;> rfl
@[simp] theorem modCq_time (s : State) (k : Nat) (f : Cq → Cq) : (modCq s k f).time = s.time := by unfold modCq; split <;> rfl
@[simp] theorem modCq_dry (s : State) (k : Nat) (f : Cq → Cq) : (modCq s k f).dry = s.dry := by unfold modCq; split <;> rfl
@[simp] theorem modCq_cores (s : State) (k : Nat) (f : Cq → Cq) : (modCq s k f).cores = s.cores := by unfold modCq; split <;> rfl
@[simp] theorem modCq_cph (s : State) (k : Nat) (f : Cq → Cq) : (modCq s k f).cph = s.cph := by unfold modCq; split <;> rfl
@[simp] theorem modCq_wove (s : State) (k : Nat) (f : Cq → Cq) : (modCq s k f).wove = s.wove := by unfold modCq; split <;> rfl
@[simp] theorem modCq_boot (s : State) (k : Nat) (f : Cq → Cq) : (modCq s k f).boot = s.boot := by unfold modCq; split <;> rfl
@[simp] theorem modCq_memc (s : State) (k : Nat) (f : Cq → Cq) : (modCq s k f).memc = s.memc := by unfold modCq; split <;> rfl

/-! ### modConn -/

@[simp] theorem modConn_pending (s : State) (k : Nat) (f : Conn → Conn) : (modConn s k f).pending = s.pending := by unfold modConn; split <;> rfl
@[simp] theorem modConn_variant (s : State) (k : Nat) (f : Conn → Conn) : (modConn s k f).variant = s.variant := by unfold modConn; split <;> rfl
@[simp] theorem modConn_power (s : State) (k : Nat) (f : Conn → Conn) : (modConn s k f).power = s.power := by unfold modConn; split <;> rfl
@[simp] theorem modConn_deviceTime (s : State) (k : Nat) (f : Conn → Conn) : (modConn s k f).deviceTime = s.deviceTime := by unfold modConn; split <;> rfl
@[simp] theorem modConn_fresh (s : State) (k : Nat) (f : Conn → Conn) : (modConn s k f).fresh = s.fresh := by unfold modConn; split <;> rfl
@[simp] theorem modConn_regs (s : State) (k : Nat) (f : Conn → Conn) : (modConn s k f).regs = s.regs := by unfold modConn; split <;> rfl
@[simp] theorem modConn_readLatch (s : State) (k : Nat) (f : Conn → Conn) : (modConn s k f).readLatch = s.readLatch := by unfold modConn; split <;> rfl
@[simp] theorem modConn_writeLatch (s : State) (k : Nat) (f : Conn → Conn) : (modConn s k f).writeLatch = s.writeLatch := by unfold modConn; split <;> rfl
@[simp] theorem modConn_out (s : State) (k : Nat) (f : Conn → Conn) : (modConn s k f).out = s.out := by unfold modConn; split <;> rfl
@[simp] theorem modConn_grade (s : State) (k : Nat) (f : Conn → Conn) : (modConn s k f).grade = s.grade := by unfold modConn; split <;> rfl
@[simp] theorem modConn_obs (s : State) (k : Nat) (f : Conn → Conn) : (modConn s k f).obs = s.obs := by unfold modConn; split <;> rfl
@[simp] theorem modConn_host (s : State) (k : Nat) (f : Conn → Conn) : (modConn s k f).host = s.host := by unfold modConn; split <;> rfl
@[simp] theorem modConn_chans (s : State) (k : Nat) (f : Conn → Conn) : (modConn s k f).chans = s.chans := by unfold modConn; split <;> rfl
@[simp] theorem modConn_mem (s : State) (k : Nat) (f : Conn → Conn) : (modConn s k f).mem = s.mem := by unfold modConn; split <;> rfl
@[simp] theorem modConn_pkt (s : State) (k : Nat) (f : Conn → Conn) : (modConn s k f).pkt = s.pkt := by unfold modConn; split <;> rfl
@[simp] theorem modConn_time (s : State) (k : Nat) (f : Conn → Conn) : (modConn s k f).time = s.time := by unfold modConn; split <;> rfl
@[simp] theorem modConn_wq (s : State) (k : Nat) (f : Conn → Conn) : (modConn s k f).wq = s.wq := by unfold modConn; split <;> rfl
@[simp] theorem modConn_dry (s : State) (k : Nat) (f : Conn → Conn) : (modConn s k f).dry = s.dry := by unfold modConn; split <;> rfl
@[simp] theorem modConn_cores (s : State) (k : Nat) (f : Conn → Conn) : (modConn s k f).cores = s.cores := by unfold modConn; split <;> rfl
@[simp] theorem modConn_cph (s : State) (k : Nat) (f : Conn → Conn) : (modConn s k f).cph = s.cph := by unfold modConn; split <;> rfl
@[simp] theorem modConn_boot (s : State) (k : Nat) (f : Conn → Conn) : (modConn s k f).boot = s.boot := by unfold modConn; split <;> rfl
@[simp] theorem modConn_memc (s : State) (k : Nat) (f : Conn → Conn) : (modConn s k f).memc = s.memc := by unfold modConn; split <;> rfl

/-! ### modRecv -/

@[simp] theorem modRecv_pending (s : State) (k q : Nat) (f : WovRecv → WovRecv) : (modRecv s k q f).pending = s.pending := modConn_pending _ _ _
@[simp] theorem modRecv_variant (s : State) (k q : Nat) (f : WovRecv → WovRecv) : (modRecv s k q f).variant = s.variant := modConn_variant _ _ _
@[simp] theorem modRecv_power (s : State) (k q : Nat) (f : WovRecv → WovRecv) : (modRecv s k q f).power = s.power := modConn_power _ _ _
@[simp] theorem modRecv_deviceTime (s : State) (k q : Nat) (f : WovRecv → WovRecv) : (modRecv s k q f).deviceTime = s.deviceTime := modConn_deviceTime _ _ _
@[simp] theorem modRecv_fresh (s : State) (k q : Nat) (f : WovRecv → WovRecv) : (modRecv s k q f).fresh = s.fresh := modConn_fresh _ _ _
@[simp] theorem modRecv_regs (s : State) (k q : Nat) (f : WovRecv → WovRecv) : (modRecv s k q f).regs = s.regs := modConn_regs _ _ _
@[simp] theorem modRecv_readLatch (s : State) (k q : Nat) (f : WovRecv → WovRecv) : (modRecv s k q f).readLatch = s.readLatch := modConn_readLatch _ _ _
@[simp] theorem modRecv_writeLatch (s : State) (k q : Nat) (f : WovRecv → WovRecv) : (modRecv s k q f).writeLatch = s.writeLatch := modConn_writeLatch _ _ _
@[simp] theorem modRecv_out (s : State) (k q : Nat) (f : WovRecv → WovRecv) : (modRecv s k q f).out = s.out := modConn_out _ _ _
@[simp] theorem modRecv_grade (s : State) (k q : Nat) (f : WovRecv → WovRecv) : (modRecv s k q f).grade = s.grade := modConn_grade _ _ _
@[simp] theorem modRecv_obs (s : State) (k q : Nat) (f : WovRecv → WovRecv) : (modRecv s k q f).obs = s.obs := modConn_obs _ _ _
@[simp] theorem modRecv_host (s : State) (k q : Nat) (f : WovRecv → WovRecv) : (modRecv s k q f).host = s.host := modConn_host _ _ _
@[simp] theorem modRecv_chans (s : State) (k q : Nat) (f : WovRecv → WovRecv) : (modRecv s k q f).chans = s.chans := modConn_chans _ _ _
@[simp] theorem modRecv_mem (s : State) (k q : Nat) (f : WovRecv → WovRecv) : (modRecv s k q f).mem = s.mem := modConn_mem _ _ _
@[simp] theorem modRecv_pkt (s : State) (k q : Nat) (f : WovRecv → WovRecv) : (modRecv s k q f).pkt = s.pkt := modConn_pkt _ _ _
@[simp] theorem modRecv_time (s : State) (k q : Nat) (f : WovRecv → WovRecv) : (modRecv s k q f).time = s.time := modConn_time _ _ _
@[simp] theorem modRecv_wq (s : State) (k q : Nat) (f : WovRecv → WovRecv) : (modRecv s k q f).wq = s.wq := modConn_wq _ _ _
@[simp] theorem modRecv_dry (s : State) (k q : Nat) (f : WovRecv → WovRecv) : (modRecv s k q f).dry = s.dry := modConn_dry _ _ _
@[simp] theorem modRecv_cores (s : State) (k q : Nat) (f : WovRecv → WovRecv) : (modRecv s k q f).cores = s.cores := modConn_cores _ _ _
@[simp] theorem modRecv_cph (s : State) (k q : Nat) (f : WovRecv → WovRecv) : (modRecv s k q f).cph = s.cph := modConn_cph _ _ _
@[simp] theorem modRecv_boot (s : State) (k q : Nat) (f : WovRecv → WovRecv) : (modRecv s k q f).boot = s.boot := modConn_boot _ _ _
@[simp] theorem modRecv_memc (s : State) (k q : Nat) (f : WovRecv → WovRecv) : (modRecv s k q f).memc = s.memc := modConn_memc _ _ _

/-! ### putRecord -/

@[simp] theorem putRecord_pending (s : State) (n : Nat) : (putRecord s n).pending = s.pending := rfl
@[simp] theorem putRecord_variant (s : State) (n : Nat) : (putRecord s n).variant = s.variant := rfl
@[simp] theorem putRecord_power (s : State) (n : Nat) : (putRecord s n).power = s.power := rfl
@[simp] theorem putRecord_deviceTime (s : State) (n : Nat) : (putRecord s n).deviceTime = s.deviceTime := rfl
@[simp] theorem putRecord_fresh (s : State) (n : Nat) : (putRecord s n).fresh = s.fresh := rfl
@[simp] theorem putRecord_regs (s : State) (n : Nat) : (putRecord s n).regs = s.regs := rfl
@[simp] theorem putRecord_readLatch (s : State) (n : Nat) : (putRecord s n).readLatch = s.readLatch := rfl
@[simp] theorem putRecord_writeLatch (s : State) (n : Nat) : (putRecord s n).writeLatch = s.writeLatch := rfl
@[simp] theorem putRecord_out (s : State) (n : Nat) : (putRecord s n).out = s.out := rfl
@[simp] theorem putRecord_grade (s : State) (n : Nat) : (putRecord s n).grade = s.grade := rfl
@[simp] theorem putRecord_obs (s : State) (n : Nat) : (putRecord s n).obs = s.obs := rfl
@[simp] theorem putRecord_host (s : State) (n : Nat) : (putRecord s n).host = s.host := rfl
@[simp] theorem putRecord_chans (s : State) (n : Nat) : (putRecord s n).chans = s.chans := rfl
@[simp] theorem putRecord_mem (s : State) (n : Nat) : (putRecord s n).mem = s.mem := rfl
@[simp] theorem putRecord_pkt (s : State) (n : Nat) : (putRecord s n).pkt = s.pkt := rfl
@[simp] theorem putRecord_time (s : State) (n : Nat) : (putRecord s n).time = s.time := rfl
@[simp] theorem putRecord_wq (s : State) (n : Nat) : (putRecord s n).wq = s.wq := rfl
@[simp] theorem putRecord_dry (s : State) (n : Nat) : (putRecord s n).dry = s.dry := rfl
@[simp] theorem putRecord_cores (s : State) (n : Nat) : (putRecord s n).cores = s.cores := rfl
@[simp] theorem putRecord_wove (s : State) (n : Nat) : (putRecord s n).wove = s.wove := rfl
@[simp] theorem putRecord_boot (s : State) (n : Nat) : (putRecord s n).boot = s.boot := rfl
@[simp] theorem putRecord_memc (s : State) (n : Nat) : (putRecord s n).memc = s.memc := rfl

/-! ### setGraph -/

@[simp] theorem setGraph_pending (s : State) (g : Nat) (x : GraphSlot) : (setGraph s g x).pending = s.pending := rfl
@[simp] theorem setGraph_variant (s : State) (g : Nat) (x : GraphSlot) : (setGraph s g x).variant = s.variant := rfl
@[simp] theorem setGraph_power (s : State) (g : Nat) (x : GraphSlot) : (setGraph s g x).power = s.power := rfl
@[simp] theorem setGraph_deviceTime (s : State) (g : Nat) (x : GraphSlot) : (setGraph s g x).deviceTime = s.deviceTime := rfl
@[simp] theorem setGraph_fresh (s : State) (g : Nat) (x : GraphSlot) : (setGraph s g x).fresh = s.fresh := rfl
@[simp] theorem setGraph_regs (s : State) (g : Nat) (x : GraphSlot) : (setGraph s g x).regs = s.regs := rfl
@[simp] theorem setGraph_readLatch (s : State) (g : Nat) (x : GraphSlot) : (setGraph s g x).readLatch = s.readLatch := rfl
@[simp] theorem setGraph_writeLatch (s : State) (g : Nat) (x : GraphSlot) : (setGraph s g x).writeLatch = s.writeLatch := rfl
@[simp] theorem setGraph_out (s : State) (g : Nat) (x : GraphSlot) : (setGraph s g x).out = s.out := rfl
@[simp] theorem setGraph_grade (s : State) (g : Nat) (x : GraphSlot) : (setGraph s g x).grade = s.grade := rfl
@[simp] theorem setGraph_obs (s : State) (g : Nat) (x : GraphSlot) : (setGraph s g x).obs = s.obs := rfl
@[simp] theorem setGraph_host (s : State) (g : Nat) (x : GraphSlot) : (setGraph s g x).host = s.host := rfl
@[simp] theorem setGraph_chans (s : State) (g : Nat) (x : GraphSlot) : (setGraph s g x).chans = s.chans := rfl
@[simp] theorem setGraph_mem (s : State) (g : Nat) (x : GraphSlot) : (setGraph s g x).mem = s.mem := rfl
@[simp] theorem setGraph_time (s : State) (g : Nat) (x : GraphSlot) : (setGraph s g x).time = s.time := rfl
@[simp] theorem setGraph_wq (s : State) (g : Nat) (x : GraphSlot) : (setGraph s g x).wq = s.wq := rfl
@[simp] theorem setGraph_dry (s : State) (g : Nat) (x : GraphSlot) : (setGraph s g x).dry = s.dry := rfl
@[simp] theorem setGraph_cores (s : State) (g : Nat) (x : GraphSlot) : (setGraph s g x).cores = s.cores := rfl
@[simp] theorem setGraph_cph (s : State) (g : Nat) (x : GraphSlot) : (setGraph s g x).cph = s.cph := rfl
@[simp] theorem setGraph_wove (s : State) (g : Nat) (x : GraphSlot) : (setGraph s g x).wove = s.wove := rfl
@[simp] theorem setGraph_boot (s : State) (g : Nat) (x : GraphSlot) : (setGraph s g x).boot = s.boot := rfl
@[simp] theorem setGraph_memc (s : State) (g : Nat) (x : GraphSlot) : (setGraph s g x).memc = s.memc := rfl

/-! ### setInlet -/

@[simp] theorem setInlet_pending (s : State) (k : Nat) (l : List InFrame) : (setInlet s k l).pending = s.pending := rfl
@[simp] theorem setInlet_variant (s : State) (k : Nat) (l : List InFrame) : (setInlet s k l).variant = s.variant := rfl
@[simp] theorem setInlet_power (s : State) (k : Nat) (l : List InFrame) : (setInlet s k l).power = s.power := rfl
@[simp] theorem setInlet_deviceTime (s : State) (k : Nat) (l : List InFrame) : (setInlet s k l).deviceTime = s.deviceTime := rfl
@[simp] theorem setInlet_fresh (s : State) (k : Nat) (l : List InFrame) : (setInlet s k l).fresh = s.fresh := rfl
@[simp] theorem setInlet_regs (s : State) (k : Nat) (l : List InFrame) : (setInlet s k l).regs = s.regs := rfl
@[simp] theorem setInlet_readLatch (s : State) (k : Nat) (l : List InFrame) : (setInlet s k l).readLatch = s.readLatch := rfl
@[simp] theorem setInlet_writeLatch (s : State) (k : Nat) (l : List InFrame) : (setInlet s k l).writeLatch = s.writeLatch := rfl
@[simp] theorem setInlet_out (s : State) (k : Nat) (l : List InFrame) : (setInlet s k l).out = s.out := rfl
@[simp] theorem setInlet_grade (s : State) (k : Nat) (l : List InFrame) : (setInlet s k l).grade = s.grade := rfl
@[simp] theorem setInlet_obs (s : State) (k : Nat) (l : List InFrame) : (setInlet s k l).obs = s.obs := rfl
@[simp] theorem setInlet_host (s : State) (k : Nat) (l : List InFrame) : (setInlet s k l).host = s.host := rfl
@[simp] theorem setInlet_chans (s : State) (k : Nat) (l : List InFrame) : (setInlet s k l).chans = s.chans := rfl
@[simp] theorem setInlet_mem (s : State) (k : Nat) (l : List InFrame) : (setInlet s k l).mem = s.mem := rfl
@[simp] theorem setInlet_time (s : State) (k : Nat) (l : List InFrame) : (setInlet s k l).time = s.time := rfl
@[simp] theorem setInlet_wq (s : State) (k : Nat) (l : List InFrame) : (setInlet s k l).wq = s.wq := rfl
@[simp] theorem setInlet_dry (s : State) (k : Nat) (l : List InFrame) : (setInlet s k l).dry = s.dry := rfl
@[simp] theorem setInlet_cores (s : State) (k : Nat) (l : List InFrame) : (setInlet s k l).cores = s.cores := rfl
@[simp] theorem setInlet_cph (s : State) (k : Nat) (l : List InFrame) : (setInlet s k l).cph = s.cph := rfl
@[simp] theorem setInlet_wove (s : State) (k : Nat) (l : List InFrame) : (setInlet s k l).wove = s.wove := rfl
@[simp] theorem setInlet_boot (s : State) (k : Nat) (l : List InFrame) : (setInlet s k l).boot = s.boot := rfl
@[simp] theorem setInlet_memc (s : State) (k : Nat) (l : List InFrame) : (setInlet s k l).memc = s.memc := rfl

/-! ### setReadLatch -/

@[simp] theorem setReadLatch_pending (s : State) (m : Master) (v : Word) : (setReadLatch s m v).pending = s.pending := rfl
@[simp] theorem setReadLatch_variant (s : State) (m : Master) (v : Word) : (setReadLatch s m v).variant = s.variant := rfl
@[simp] theorem setReadLatch_power (s : State) (m : Master) (v : Word) : (setReadLatch s m v).power = s.power := rfl
@[simp] theorem setReadLatch_deviceTime (s : State) (m : Master) (v : Word) : (setReadLatch s m v).deviceTime = s.deviceTime := rfl
@[simp] theorem setReadLatch_fresh (s : State) (m : Master) (v : Word) : (setReadLatch s m v).fresh = s.fresh := rfl
@[simp] theorem setReadLatch_regs (s : State) (m : Master) (v : Word) : (setReadLatch s m v).regs = s.regs := rfl
@[simp] theorem setReadLatch_writeLatch (s : State) (m : Master) (v : Word) : (setReadLatch s m v).writeLatch = s.writeLatch := rfl
@[simp] theorem setReadLatch_out (s : State) (m : Master) (v : Word) : (setReadLatch s m v).out = s.out := rfl
@[simp] theorem setReadLatch_grade (s : State) (m : Master) (v : Word) : (setReadLatch s m v).grade = s.grade := rfl
@[simp] theorem setReadLatch_obs (s : State) (m : Master) (v : Word) : (setReadLatch s m v).obs = s.obs := rfl
@[simp] theorem setReadLatch_host (s : State) (m : Master) (v : Word) : (setReadLatch s m v).host = s.host := rfl
@[simp] theorem setReadLatch_chans (s : State) (m : Master) (v : Word) : (setReadLatch s m v).chans = s.chans := rfl
@[simp] theorem setReadLatch_mem (s : State) (m : Master) (v : Word) : (setReadLatch s m v).mem = s.mem := rfl
@[simp] theorem setReadLatch_pkt (s : State) (m : Master) (v : Word) : (setReadLatch s m v).pkt = s.pkt := rfl
@[simp] theorem setReadLatch_time (s : State) (m : Master) (v : Word) : (setReadLatch s m v).time = s.time := rfl
@[simp] theorem setReadLatch_wq (s : State) (m : Master) (v : Word) : (setReadLatch s m v).wq = s.wq := rfl
@[simp] theorem setReadLatch_dry (s : State) (m : Master) (v : Word) : (setReadLatch s m v).dry = s.dry := rfl
@[simp] theorem setReadLatch_cores (s : State) (m : Master) (v : Word) : (setReadLatch s m v).cores = s.cores := rfl
@[simp] theorem setReadLatch_cph (s : State) (m : Master) (v : Word) : (setReadLatch s m v).cph = s.cph := rfl
@[simp] theorem setReadLatch_wove (s : State) (m : Master) (v : Word) : (setReadLatch s m v).wove = s.wove := rfl
@[simp] theorem setReadLatch_boot (s : State) (m : Master) (v : Word) : (setReadLatch s m v).boot = s.boot := rfl
@[simp] theorem setReadLatch_memc (s : State) (m : Master) (v : Word) : (setReadLatch s m v).memc = s.memc := rfl

/-! ### What the updates write -/

@[simp] theorem wr_regs (s : State) (a : Nat) (v : Word) :
    (wr s a v).regs = sput (regReset s.variant) s.regs a v := rfl
@[simp] theorem emit_out (s : State) (o : Out) : (emit s o).out = o :: s.out := rfl
@[simp] theorem modFn_fns (s : State) (k : Nat) (f : Fn → Fn) :
    (modFn s k f).host.fns = tmod s.host.fns k {} f := rfl
@[simp] theorem modLink_links (s : State) (k : Nat) (f : Link → Link) :
    (modLink s k f).host.links = tmod s.host.links k {} f := rfl
@[simp] theorem modChan_chans (s : State) (k : Nat) (f : Channel → Channel) :
    (modChan s k f).chans = tmod s.chans k {} f := rfl
@[simp] theorem modPort_ports (s : State) (k : Nat) (f : Port → Port) :
    (modPort s k f).pkt.ports = tmod s.pkt.ports k {} f := rfl
@[simp] theorem modCore_cores (s : State) (k : Nat) (f : Core → Core) :
    (modCore s k f).cores.cores = tmod s.cores.cores k {} f := rfl
@[simp] theorem modSa_sas (s : State) (k : Nat) (f : Sa → Sa) :
    (modSa s k f).cph.sas = tmod s.cph.sas k {} f := rfl
@[simp] theorem modTrig_trigs (s : State) (k : Nat) (f : TrigSlot → TrigSlot) :
    (modTrig s k f).time.trigs = tmod s.time.trigs k {} f := rfl
@[simp] theorem modPhc_phcs (s : State) (k : Nat) (f : Phc → Phc) :
    (modPhc s k f).time.phcs = tmod s.time.phcs k {} f := rfl
@[simp] theorem modRing_ring (s : State) (f : RingState → RingState) : (modRing s f).time.ring = f s.time.ring := rfl

/-! ### Records rewritten whole -/

@[simp] theorem clocked_wr (s : State) (a : Nat) (v : Word) : clocked (wr s a v) = clocked s := rfl
@[simp] theorem clocked_emit (s : State) (o : Out) : clocked (emit s o) = clocked s := rfl

end Sys2Proof.Machine
end

