-- ==== Sys2Proof/Laws/Registers.lean ====
section
/-! SUPPORT. Register words and their fields: reading after writing. -/

namespace Sys2Proof.Machine

theorem rd_wr (s : State) (a b : Nat) (v : Word) : rd (wr s a v) b = if a = b then v else rd s b := by
  simp only [rd, wr_regs, wr_variant, sget_sput]

@[simp] theorem rd_wr_self (s : State) (a : Nat) (v : Word) : rd (wr s a v) a = v := by simp [rd_wr]

theorem rd_wr_ne (s : State) {a b : Nat} (h : a ≠ b) (v : Word) : rd (wr s a v) b = rd s b := by simp [rd_wr, h]

/-- A state with the same registers and the same variant reads the same. -/
theorem rd_congr {s t : State} (hr : t.regs = s.regs) (hv : t.variant = s.variant) (a : Nat) : rd t a = rd s a := by
  simp [rd, hr, hv]

@[simp] theorem rd_setFld_self (s : State) (a hi lo v : Nat) : rd (setFld s a hi lo v) a = putBits (rd s a) hi lo v := by
  simp [setFld]

theorem rd_setFld_ne (s : State) {a b : Nat} (h : a ≠ b) (hi lo v : Nat) : rd (setFld s a hi lo v) b = rd s b := by
  simp [setFld, rd_wr_ne _ h]

@[simp] theorem rd_emit (s : State) (o : Out) (a : Nat) : rd (emit s o) a = rd s a := rfl

theorem bits_lt (w : Word) (hi lo : Nat) : bits w hi lo < 2 ^ (hi + 1 - lo) := Nat.mod_lt _ (by positivity)

/-- Subtracting a field and putting another in its place stays within a word. -/
theorem putBits_toNat (w : Word) (hi lo v : Nat) (h : lo ≤ hi) (h32 : hi < 32) :
    (putBits w hi lo v).toNat =
      w.toNat / 2 ^ (hi + 1) * 2 ^ (hi + 1) + v % 2 ^ (hi + 1 - lo) * 2 ^ lo + w.toNat % 2 ^ lo := by
  set n := hi + 1 - lo with hn
  have e : hi + 1 = lo + n := by omega
  have hw : w.toNat < 2 ^ 32 := w.isLt
  have hv : v % 2 ^ n < 2 ^ n := Nat.mod_lt _ (by positivity)
  have hlo : w.toNat % 2 ^ lo < 2 ^ lo := Nat.mod_lt _ (by positivity)
  have d1 : w.toNat = 2 ^ lo * (w.toNat / 2 ^ lo) + w.toNat % 2 ^ lo := (Nat.div_add_mod _ _).symm
  have d2 : w.toNat / 2 ^ lo = 2 ^ n * (w.toNat / 2 ^ lo / 2 ^ n) + w.toNat / 2 ^ lo % 2 ^ n :=
    (Nat.div_add_mod _ _).symm
  have d3 : w.toNat / 2 ^ lo / 2 ^ n = w.toNat / 2 ^ (hi + 1) := by rw [Nat.div_div_eq_div_mul, e, pow_add]
  set q := w.toNat / 2 ^ (hi + 1) with hq
  set f := w.toNat / 2 ^ lo % 2 ^ n with hf
  set r := w.toNat % 2 ^ lo with hr
  have hb : bits w hi lo = f := by simp [bits, hf, hn]
  have key : w.toNat = q * 2 ^ (hi + 1) + f * 2 ^ lo + r := by
    rw [d3] at d2
    rw [d1, d2, e, pow_add]; ring
  have hqb : q * 2 ^ (hi + 1) + 2 ^ (hi + 1) ≤ 2 ^ 32 := by
    have : q < 2 ^ (32 - (hi + 1)) := by
      rw [hq, Nat.div_lt_iff_lt_mul (by positivity), ← pow_add]
      have : 32 - (hi + 1) + (hi + 1) = 32 := by omega
      rw [this]; exact hw
    have h2 : (q + 1) * 2 ^ (hi + 1) ≤ 2 ^ (32 - (hi + 1)) * 2 ^ (hi + 1) := Nat.mul_le_mul_right _ this
    rw [← pow_add] at h2
    have : 32 - (hi + 1) + (hi + 1) = 32 := by omega
    rw [this] at h2; linarith
  have hfit : v % 2 ^ n * 2 ^ lo + r < 2 ^ (hi + 1) := by
    have : (v % 2 ^ n + 1) * 2 ^ lo ≤ 2 ^ n * 2 ^ lo := Nat.mul_le_mul_right _ hv
    rw [← pow_add, show n + lo = hi + 1 by omega] at this
    linarith
  unfold putBits
  rw [BitVec.toNat_ofNat, hb, ← hn]
  have : w.toNat - f * 2 ^ lo + v % 2 ^ n * 2 ^ lo = q * 2 ^ (hi + 1) + v % 2 ^ n * 2 ^ lo + r := by omega
  rw [this, Nat.mod_eq_of_lt (by omega)]

/-- The field written reads back. -/
theorem bits_putBits_self (w : Word) (hi lo v : Nat) (h : lo ≤ hi) (h32 : hi < 32) :
    bits (putBits w hi lo v) hi lo = v % 2 ^ (hi + 1 - lo) := by
  have hlo : w.toNat % 2 ^ lo < 2 ^ lo := Nat.mod_lt _ (by positivity)
  rw [bits, putBits_toNat w hi lo v h h32]
  set n := hi + 1 - lo
  have e : hi + 1 = n + lo := by omega
  rw [e, pow_add, show w.toNat / (2 ^ n * 2 ^ lo) * (2 ^ n * 2 ^ lo) + v % 2 ^ n * 2 ^ lo + w.toNat % 2 ^ lo =
    w.toNat % 2 ^ lo + (w.toNat / (2 ^ n * 2 ^ lo) * 2 ^ n + v % 2 ^ n) * 2 ^ lo by ring,
    Nat.add_mul_div_right _ _ (by positivity), Nat.div_eq_of_lt hlo, Nat.zero_add, Nat.add_comm,
    Nat.add_mul_mod_self_right, Nat.mod_mod]

/-- A field below the one written keeps its value. -/
theorem bits_putBits_below (w : Word) (hi lo v h' l' : Nat) (h : lo ≤ hi) (h32 : hi < 32) (hl : l' ≤ h') (hb : h' < lo) :
    bits (putBits w hi lo v) h' l' = bits w h' l' := by
  have key : (putBits w hi lo v).toNat % 2 ^ lo = w.toNat % 2 ^ lo := by
    rw [putBits_toNat w hi lo v h h32]
    have e : hi + 1 = (hi + 1 - lo) + lo := by omega
    rw [e, pow_add, show w.toNat / (2 ^ (hi + 1 - lo) * 2 ^ lo) * (2 ^ (hi + 1 - lo) * 2 ^ lo) +
      v % 2 ^ (hi + 1 - lo + lo - lo) * 2 ^ lo + w.toNat % 2 ^ lo =
      w.toNat % 2 ^ lo + (w.toNat / (2 ^ (hi + 1 - lo) * 2 ^ lo) * 2 ^ (hi + 1 - lo) + v % 2 ^ (hi + 1 - lo + lo - lo)) * 2 ^ lo
      by ring, Nat.add_mul_mod_self_right, Nat.mod_mod]
  have low (x : Nat) : x / 2 ^ l' % 2 ^ (h' + 1 - l') = x % 2 ^ lo / 2 ^ l' % 2 ^ (h' + 1 - l') := by
    have e : 2 ^ lo = 2 ^ l' * (2 ^ (h' + 1 - l') * 2 ^ (lo - (h' + 1))) := by
      rw [← pow_add, ← pow_add]; congr 1; omega
    rw [e, Nat.mod_mul_right_div_self, Nat.mod_mul_right_mod]
  rw [bits, bits, low, key, ← low]

/-- A field above the one written keeps its value. -/
theorem bits_putBits_above (w : Word) (hi lo v h' l' : Nat) (h : lo ≤ hi) (h32 : hi < 32) (hb : hi < l') :
    bits (putBits w hi lo v) h' l' = bits w h' l' := by
  have key : (putBits w hi lo v).toNat / 2 ^ (hi + 1) = w.toNat / 2 ^ (hi + 1) := by
    rw [putBits_toNat w hi lo v h h32]
    have hv : v % 2 ^ (hi + 1 - lo) < 2 ^ (hi + 1 - lo) := Nat.mod_lt _ (by positivity)
    have hlo : w.toNat % 2 ^ lo < 2 ^ lo := Nat.mod_lt _ (by positivity)
    have hfit : v % 2 ^ (hi + 1 - lo) * 2 ^ lo + w.toNat % 2 ^ lo < 2 ^ (hi + 1) := by
      have : (v % 2 ^ (hi + 1 - lo) + 1) * 2 ^ lo ≤ 2 ^ (hi + 1 - lo) * 2 ^ lo := Nat.mul_le_mul_right _ hv
      rw [← pow_add, show hi + 1 - lo + lo = hi + 1 by omega] at this
      linarith
    rw [Nat.add_assoc, Nat.add_comm, Nat.add_mul_div_right _ _ (by positivity), Nat.div_eq_of_lt hfit, Nat.zero_add]
  have up (x : Nat) : x / 2 ^ l' = x / 2 ^ (hi + 1) / 2 ^ (l' - (hi + 1)) := by
    rw [Nat.div_div_eq_div_mul, ← pow_add]; congr 2; omega
  rw [bits, bits, up, key, ← up]

/-- Reading a field of a register after a write of the same field, and of another register. -/
theorem fld_setFld_self (s : State) (a hi lo v : Nat) (h : lo ≤ hi) (h32 : hi < 32) :
    fld (setFld s a hi lo v) a hi lo = v % 2 ^ (hi + 1 - lo) := by
  simp only [fld, rd_setFld_self, bits_putBits_self _ _ _ _ h h32]

theorem fld_setFld_ne (s : State) {a b : Nat} (hab : a ≠ b) (hi lo v h' l' : Nat) :
    fld (setFld s a hi lo v) b h' l' = fld s b h' l' := by
  simp only [fld, rd_setFld_ne s hab]

theorem fld_wr_ne (s : State) {a b : Nat} (hab : a ≠ b) (v : Word) (hi lo : Nat) :
    fld (wr s a v) b hi lo = fld s b hi lo := by
  simp only [fld, rd_wr_ne s hab]

/-- A 48-bit counter after counting. -/
theorem rd64_wr64 (s : State) (a v : Nat) (h : v < 2 ^ 64) : rd64 (wr64 s a v) a = v := by
  have e : rd (wr64 s a v) a = BitVec.ofNat 32 v := by
    rw [wr64, rd_wr_ne _ (by omega), rd_wr_self]
  have e' : rd (wr64 s a v) (a + 4) = BitVec.ofNat 32 (v / 2 ^ 32) := by rw [wr64, rd_wr_self]
  rw [rd64, e, e', BitVec.toNat_ofNat, BitVec.toNat_ofNat]
  have : v / 2 ^ 32 < 2 ^ 32 := by omega
  rw [Nat.mod_eq_of_lt this]; omega

theorem rd64_count (s : State) (a n : Nat) : rd64 (count s a n) a = (rd64 s a + n) % 2 ^ 48 := by
  rw [count, rd64_wr64]
  exact lt_of_lt_of_le (Nat.mod_lt _ (by norm_num)) (by norm_num)

theorem rd_wr64_ne (s : State) (a v b : Nat) (h : b ≠ a) (h' : b ≠ a + 4) : rd (wr64 s a v) b = rd s b := by
  rw [wr64, rd_wr_ne _ (Ne.symm h'), rd_wr_ne _ (Ne.symm h)]

theorem rd_count_ne (s : State) (a n b : Nat) (h : b ≠ a) (h' : b ≠ a + 4) : rd (count s a n) b = rd s b :=
  rd_wr64_ne s a _ b h h'

/-- A hardware set leaves every other register, sets the bit, and adds one to the counter field (R25). -/
theorem rd_hwSet_ne (s : State) (a b hi lo c : Nat) (h : c ≠ a) (h' : c ≠ a + 4) : rd (hwSet s a b hi lo) c = rd s c := by
  rw [hwSet, rd_setFld_ne _ (Ne.symm h'), setFlag, rd_setFld_ne _ (Ne.symm h)]

theorem flag_hwSet (s : State) (a b hi lo : Nat) (h : b < 32) : flag (hwSet s a b hi lo) a b = true := by
  rw [flag, hwSet, fld_setFld_ne _ (by omega), setFlag, fld_setFld_self _ _ _ _ _ (le_refl _) h]
  have : b + 1 - b = 1 := by omega
  simp [this]

theorem fld_hwSet_occ (s : State) (a b hi lo : Nat) (h : lo ≤ hi) (h32 : hi < 32) :
    fld (hwSet s a b hi lo) (a + 4) hi lo = (fld s (a + 4) hi lo + 1) % 2 ^ (hi + 1 - lo) := by
  rw [hwSet, fld_setFld_self _ _ _ _ _ h h32, setFlag, fld_setFld_ne _ (by omega)]

end Sys2Proof.Machine
end

