-- ==== Sys2Proof/Laws/Commands.lean ====
section
/-! SUPPORT. The frames every meaning is written with: what a command of the clocked parts, of the always-powered parts
and of a Joryen channel can do at most, and what it does when its conditions hold. -/

namespace Sys2Proof.Machine

/-! ## Commands of the clocked parts -/

/-- What `live`, `liveMem` and `liveReset` keep of the old state beside the new one. -/
def keep (s t : State) : State :=
  { t with pending := s.pending, variant := s.variant, power := s.power, deviceTime := s.deviceTime, mem := s.mem }
def keepMost (s t : State) : State :=
  { t with pending := s.pending, variant := s.variant, power := s.power, deviceTime := s.deviceTime }
def keepReset (s t : State) : State :=
  { t with pending := s.pending, variant := s.variant, deviceTime := s.deviceTime
           power := if t.power == .run then .run else .hold
           mem := if t.power == .run then s.mem else {} }

/-- What `always` keeps of the old state beside the new one. -/
def keepAlways (s t : State) : State :=
  { t with pending := s.pending, variant := s.variant, deviceTime := s.deviceTime, mem := s.mem
           power := s.power
           grade := s.grade }

theorem live_clocked (s : State) (f : State → State) (h : clocked s = true) :
    live s f = .next (keep s (f s)) := by
  simp only [live, h, if_true, keep]

theorem live_idle (s : State) (f : State → State) (h : clocked s = false) : live s f = .next s := by
  simp [live, h]

/-- Everything `live` can do: without clocks nothing, with them the change, the queue, the variant, DEVICE_TIME and the
memories kept. -/
theorem live_next (s t : State) (f : State → State) (h : live s f = .next t) :
    (clocked s = false ∧ t = s) ∨ (clocked s = true ∧ t = keep s (f s)) := by
  unfold live at h
  split at h
  · exact .inr ⟨‹_›, by cases h; rfl⟩
  · rename_i hc; exact .inl ⟨Bool.eq_false_of_not_eq_true hc, by cases h; rfl⟩

theorem liveMem_next (s t : State) (f : State → State) (h : liveMem s f = .next t) :
    (clocked s = false ∧ t = s) ∨ (clocked s = true ∧ t = keepMost s (f s)) := by
  unfold liveMem at h
  split at h
  · exact .inr ⟨‹_›, by cases h; rfl⟩
  · rename_i hc; exact .inl ⟨Bool.eq_false_of_not_eq_true hc, by cases h; rfl⟩

theorem liveReset_next (s t : State) (f : State → State) (h : liveReset s f = .next t) :
    (clocked s = false ∧ t = s) ∨ (clocked s = true ∧ t = keepReset s (f s)) := by
  unfold liveReset at h
  split at h
  · exact .inr ⟨‹_›, by cases h; rfl⟩
  · rename_i hc; exact .inl ⟨Bool.eq_false_of_not_eq_true hc, by cases h; rfl⟩

/-- Everything a command of the always-powered parts can do. -/
theorem always_next (s t : State) (f : State → State) (h : always s f = .next t) :
    t = keepAlways s (f s) := by
  unfold always at h; cases h; rfl

theorem within_true {b : Bool} (h : b = true) (o : Host.Outcome State Fault Refusal) : within b o = o := by
  simp [within, h]

theorem within_next {b : Bool} {o : Host.Outcome State Fault Refusal} {t : State} (h : within b o = .next t) :
    b = true ∧ o = .next t := by
  unfold within at h
  split at h
  · exact ⟨‹_›, h⟩
  · cases h

/-- A command of the clocked parts completes with what its change gives. -/
theorem answers_live {c : Instr} {s : State} {P : State → Prop} {f : State → State} (hc : clocked s = true)
    (he : exec c s = live s f)
    (hp : P (keep s (f s))) :
    Answers c s P := ⟨_, he.trans (live_clocked s f hc), hp⟩

/-! ## Writes of BAR 0 registers -/

theorem onBar0_reaches {s : State} {m : Master} (h : reachesBar0 s m = true) (f : State → State) : onBar0 s m f = f s := by
  simp [onBar0, h]

theorem onWrite_reaches {s : State} {m : Master} (hc : clocked s = true) (h : reachesBar0 s m = true) (f : State → State) :
    onWrite s m f =
      .next (keep s (f s)) := by
  rw [onWrite, live_clocked _ _ hc, onBar0_reaches h]

end Sys2Proof.Machine
end

