-- ==== Sys2Proof/Laws/Frames.lean ====
section
/-! SUPPORT. Which frame each command is written with, and from it what any command can do to the queue, the variant, the
power state, DEVICE_TIME, the memories and a device without clocks. -/

namespace Sys2Proof.Machine

/-- The frames of a meaning: the clocked parts, those that also write the memories, those that may start a device reset,
the parts without clocks, and the commands of the resets themselves. -/
inductive Frame where
  | live | mem | reset | always | own
  deriving DecidableEq

/-- The frame of a command. -/
def frameOf : Instr → Frame
  | .handoverComplete _ | .marchRunDone _ | .coreImageLoad _ _ | .fwMsgExecute _ | .bootConfigApply _
  | .traceRecordWrite _ | .coreIdleEntry _ | .quireStop _ _ | .domainDrainLimit _ | .domainClosed _ => .mem
  | .registerWrite _ _ _ _ | .wideLoWrite _ _ _ | .wideHiWrite _ _ _ | .wide64bitAccess _ _ _ | .dbgAccess _
  | .commandReplyRelease _ | .sealedReplyRelease _ | .abortDone _ => .reset
  | .idcode | .samplePreload _ | .extest | .bypass _ | .frzRegion _ | .frzCapture _ | .vddIoLoss => .always
  | .porAssert | .porRelease | .bootDevResetWrite _ _ | .deviceResetHoldEnd | .thermalTrip _ | .vddAonPowerUp
  | .perstAssert | .perstDeassert => .own
  | _ => .live

/-- What it means for a command to be written with a frame. -/
def FrameProp (c : Instr) (s : State) : Frame → Prop
  | .live => ∃ f, exec c s = within (c.wf s.variant) (live s f)
  | .mem => ∃ f, exec c s = within (c.wf s.variant) (liveMem s f)
  | .reset => ∃ f, exec c s = within (c.wf s.variant) (liveReset s f)
  | .always => ∃ f, exec c s = always s f
  | .own => True

set_option maxRecDepth 20000 in
/-- Every command is written with its frame. -/
theorem exec_frame (c : Instr) (s : State) : FrameProp c s (frameOf c) := by
  cases c
  case idcode => exact ⟨_, (rfl : execIdcode s = always s _)⟩
  case samplePreload l => exact ⟨_, (rfl : execSamplePreload l s = always s _)⟩
  case extest => exact ⟨_, (rfl : execExtest s = always s _)⟩
  case bypass l => exact ⟨_, (rfl : execBypass l s = always s _)⟩
  case frzRegion d => exact ⟨_, (rfl : execFrzRegion d s = always s _)⟩
  case frzCapture d => exact ⟨_, (rfl : execFrzCapture d s = always s _)⟩
  case vddIoLoss => exact ⟨_, (rfl : execVddIoLoss s = always s _)⟩
  all_goals first | exact True.intro | exact ⟨_, rfl⟩

/-- The commands written with a frame of their own. -/
theorem frame_own (c : Instr) (h : frameOf c = .own) :
    c = .porAssert ∨ c = .porRelease ∨ (∃ m v, c = .bootDevResetWrite m v) ∨ c = .deviceResetHoldEnd ∨
    (∃ n, c = .thermalTrip n) ∨ c = .vddAonPowerUp ∨ c = .perstAssert ∨ c = .perstDeassert := by
  cases c
  case porAssert => exact .inl rfl
  case porRelease => exact .inr (.inl rfl)
  case bootDevResetWrite m v => exact .inr (.inr (.inl ⟨m, v, rfl⟩))
  case deviceResetHoldEnd => exact .inr (.inr (.inr (.inl rfl)))
  case thermalTrip n => exact .inr (.inr (.inr (.inr (.inl ⟨n, rfl⟩))))
  case vddAonPowerUp => exact .inr (.inr (.inr (.inr (.inr (.inl rfl)))))
  case perstAssert => exact .inr (.inr (.inr (.inr (.inr (.inr (.inl rfl))))))
  case perstDeassert => exact .inr (.inr (.inr (.inr (.inr (.inr (.inr rfl))))))
  all_goals first
    | exact nomatch (show Frame.live = Frame.own from h)
    | exact nomatch (show Frame.mem = Frame.own from h)
    | exact nomatch (show Frame.reset = Frame.own from h)
    | exact nomatch (show Frame.always = Frame.own from h)

/-- Everything a command can do, by the frame it is written with: nothing, a change of the clocked parts, of those that also
write the memories or may start a device reset, a change of the parts without clocks, or a reset. -/
theorem exec_cases (c : Instr) (s t : State) (h : exec c s = .next t) :
    t = s ∨
    (clocked s = true ∧ ∃ u : State, frameOf c = .live ∧ t = keep s u) ∨
    (clocked s = true ∧ ∃ f : State → State, frameOf c = .mem ∧ exec c s = liveMem s f ∧ t = keepMost s (f s)) ∨
    (clocked s = true ∧ ∃ u : State, frameOf c = .reset ∧ t = keepReset s u) ∨
    (frameOf c = .always ∧ ∃ u : State, t = keepAlways s u) ∨
    (c = .porAssert ∧ ∃ u : State, t = { porState s .porLow with boot := u.boot }) ∨
    (c = .porRelease ∧ s.power = .porLow ∧
      t = { porRelease s with pending := s.pending, variant := s.variant }) ∨
    ((∃ m v, c = .bootDevResetWrite m v) ∧ clocked s = true ∧ ((∃ u : State, t = keep s u) ∨
      t = { startDeviceReset s with pending := s.pending, variant := s.variant, deviceTime := s.deviceTime })) ∨
    (c = .deviceResetHoldEnd ∧ s.power = .hold ∧
      t = { bootStart s with
            pending := s.pending, variant := s.variant, deviceTime := s.deviceTime, mem := s.mem }) ∨
    ((∃ n, c = .thermalTrip n) ∧ clocked s = true ∧ ∃ u v : State,
      t = { porState (hwSet s (Reg.BOOT_RESET_CAUSE) 3 15 12) .tripped with out := u.out, boot := v.boot }) ∨
    (c = .vddAonPowerUp ∧ s.power = .porLow ∧ ∃ u : State, t = { s with regs := u.regs, boot := u.boot }) ∨
    ((c = .perstAssert ∨ c = .perstDeassert) ∧
      ((clocked s = true ∧ ∃ u : State, t = keep s u) ∨ ∃ u : State, t = keepAlways s u)) := by
  have hf := exec_frame c s
  rcases hfr : frameOf c
  all_goals rw [hfr] at hf; simp only [FrameProp] at hf
  · obtain ⟨f, e⟩ := hf; rw [e] at h; have := (within_next h).2
    rcases live_next _ _ _ this with ⟨_, rfl⟩ | ⟨hc, rfl⟩
    · exact .inl rfl
    · exact .inr (.inl ⟨hc, f s, rfl, rfl⟩)
  · obtain ⟨f, e⟩ := hf; have e' := e; rw [e] at h; have := within_next h
    rw [this.1] at e'
    rcases liveMem_next _ _ _ this.2 with ⟨_, rfl⟩ | ⟨hc, rfl⟩
    · exact .inl rfl
    · exact .inr (.inr (.inl ⟨hc, f, rfl, e', rfl⟩))
  · obtain ⟨f, e⟩ := hf; rw [e] at h; have := (within_next h).2
    rcases liveReset_next _ _ _ this with ⟨_, rfl⟩ | ⟨hc, rfl⟩
    · exact .inl rfl
    · exact .inr (.inr (.inr (.inl ⟨hc, f s, rfl, rfl⟩)))
  · obtain ⟨f, e⟩ := hf; rw [e] at h; rw [always_next _ _ _ h]
    exact .inr (.inr (.inr (.inr (.inl ⟨rfl, _, rfl⟩))))
  · rcases frame_own c hfr with rfl | rfl | ⟨m, v, rfl⟩ | rfl | ⟨n, rfl⟩ | rfl | rfl | rfl
    · simp only [exec, execPorAssert] at h; cases h
      exact .inr (.inr (.inr (.inr (.inr (.inl ⟨rfl, { s with boot := _ }, rfl⟩)))))
    · simp only [exec, execPorRelease] at h; split at h <;> cases h
      · exact .inr (.inr (.inr (.inr (.inr (.inr (.inl ⟨rfl, ‹_›, rfl⟩))))))
      · exact .inl rfl
    · simp only [exec, execBootDevResetWrite] at h
      split at h
      · rename_i hc
        split at h <;> cases h
        · exact .inr (.inr (.inr (.inr (.inr (.inr (.inr (.inl ⟨⟨m, v, rfl⟩, by simp at hc; exact hc.1, .inr rfl⟩)))))))
        · exact .inl rfl
      · rcases live_next _ _ _ h with ⟨_, rfl⟩ | ⟨hc, rfl⟩
        · exact .inl rfl
        · exact .inr (.inr (.inr (.inr (.inr (.inr (.inr (.inl ⟨⟨m, v, rfl⟩, hc, .inl ⟨_, rfl⟩⟩)))))))
    · simp only [exec, execDeviceResetHoldEnd] at h; split at h <;> cases h
      · exact .inr (.inr (.inr (.inr (.inr (.inr (.inr (.inr (.inl ⟨rfl, ‹_›, rfl⟩))))))))
      · exact .inl rfl
    · simp only [exec, execThermalTrip] at h
      have := (within_next h).2
      split at this <;> cases this
      · exact .inr (.inr (.inr (.inr (.inr (.inr (.inr (.inr (.inr (.inl ⟨⟨n, rfl⟩, ‹_›, { s with out := _ }, { s with boot := _ }, rfl⟩)))))))))
      · exact .inl rfl
    · simp only [exec, execVddAonPowerUp] at h; split at h <;> cases h
      · exact .inr (.inr (.inr (.inr (.inr (.inr (.inr (.inr (.inr (.inr (.inl ⟨rfl, ‹_›, { wr (wr s (Reg.BOOT_RESET_CAUSE) 1) (Reg.BOOT_RESET_CAUSE_OCC) 0x00100000 with boot := { s.boot with frozenExit := false } }, rfl⟩))))))))))
      · exact .inl rfl
    · simp only [exec, execPerstAssert] at h
      split at h
      · rcases live_next _ _ _ h with ⟨_, rfl⟩ | ⟨hc, rfl⟩
        · exact .inl rfl
        · exact .inr (.inr (.inr (.inr (.inr (.inr (.inr (.inr (.inr (.inr (.inr ⟨.inl rfl, .inl ⟨hc, _, rfl⟩⟩))))))))))
      · rw [always_next _ _ _ h]
        exact .inr (.inr (.inr (.inr (.inr (.inr (.inr (.inr (.inr (.inr (.inr ⟨.inl rfl, .inr ⟨_, rfl⟩⟩))))))))))
    · simp only [exec, execPerstDeassert] at h
      split at h
      · rcases live_next _ _ _ h with ⟨_, rfl⟩ | ⟨hc, rfl⟩
        · exact .inl rfl
        · exact .inr (.inr (.inr (.inr (.inr (.inr (.inr (.inr (.inr (.inr (.inr ⟨.inr rfl, .inl ⟨hc, _, rfl⟩⟩))))))))))
      · rw [always_next _ _ _ h]
        exact .inr (.inr (.inr (.inr (.inr (.inr (.inr (.inr (.inr (.inr (.inr ⟨.inr rfl, .inr ⟨_, rfl⟩⟩))))))))))


end Sys2Proof.Machine
end

