-- ==== Sys2Proof/Laws/Joryen.lean ====
section
/-! SUPPORT. Joryen commands: what an admitted command comes to once its handler has answered, and what the choice of a
free number can give. -/

namespace Sys2Proof.Machine

@[simp] theorem chanOf_modChan_self (s : State) (pf : Nat) (f : Channel → Channel) :
    chanOf (modChan s pf f) pf = f (chanOf s pf) := by simp [chanOf, modChan]

theorem chanOf_modChan_ne (s : State) {pf n : Nat} (h : pf ≠ n) (f : Channel → Channel) :
    chanOf (modChan s pf f) n = chanOf s n := by simp [chanOf, modChan, tgetD_tmod_ne _ h]

@[simp] theorem chanOf_keep (s t : State) (pf : Nat) : chanOf (keep s t) pf = chanOf t pf := rfl

/-- The command a channel holds after its handler answered. -/
def afterRun (cmd : Running) (isSealed late : Bool) : CmdRes → Running × State
  | .finish r t => ({ cmd with
      phase := .settled r
      isSealed := isSealed
      late := late
      committed := r.status == stOk || r.committed }, t)
  | .wait k t => ({ cmd with
      phase := .working
      isSealed := isSealed
      late := late
      committed := k }, t)

/-- An admitted command whose length and objects its opcode accepts runs its handler, and the channel holds the answer
(R365). -/
theorem chanRun_admitted {s : State} {pf code : Nat} {buf : ParamBuf} {p : List Byte} (h : Admitted s pf code buf p) :
    ∃ cmd row, (chanOf s pf).cmd = some cmd ∧ opRow code = some row ∧ ∀ b : OpBody, b.lenOk p = true →
      b.objs (ctxOf pf false cmd.hdr (some p)) s = true →
      ∃ x y : Bool, chanRun code b pf buf s =
        let r := afterRun cmd x y (b.run (ctxOf pf false cmd.hdr (some p)) s)
        modChan r.2 pf fun ch => { ch with cmd := some r.1 } := by
  obtain ⟨-, -, cmd, row, hc, hph, hop, hbad, hlen, hbuf, hrow, hgr, hsc⟩ := h
  refine ⟨cmd, row, hc, hrow, fun b hl ho => ?_⟩
  have hread : (if hdrParamLen cmd.hdr = 0 then some [] else buf) = some p := by
    split
    · rename_i h0
      rw [hlen] at h0
      rw [List.length_eq_zero_iff.mp h0]
    · rename_i h0
      rcases hbuf with rfl | hb
      · exact absurd (by simpa using hlen) h0
      · exact hb
  have hchk : runChecks row b (ctxOf pf false cmd.hdr (some p)) cmd.hdr (some p) s =
      b.run (ctxOf pf false cmd.hdr (some p)) s := by
    unfold runChecks
    have hp : (ctxOf pf false cmd.hdr (some p)).pf = pf := rfl
    have ht : (ctxOf pf false cmd.hdr (some p)).target = hdrTarget cmd.hdr := rfl
    have hr : (ctxOf pf false cmd.hdr (some p)).ring = false := rfl
    simp only [hr, hbad, hlen, hl, ne_eq, not_true_eq_false, Bool.not_true, Bool.false_eq_true, or_self, if_false, hp, ht,
      ho, hgr]
    cases hs : row.scope <;> simp_all
  refine ⟨sealedBy (some row) pf (ctxOf pf false cmd.hdr (some p)).target
    ((some p).isNone || !(b.lenOk (ctxOf pf false cmd.hdr (some p)).params) ||
      b.own (ctxOf pf false cmd.hdr (some p)) s), (chanOf s pf).aborting, ?_⟩
  unfold chanRun
  rw [hc, hrow]
  simp only [hop, hph, true_and, if_true, hread, hchk]
  cases b.run (ctxOf pf false cmd.hdr (some p)) s <;> rfl

/-- A handler that finished leaves its reply settled. -/
theorem settled_afterRun (s t : State) (pf : Nat) (cmd : Running) (x y : Bool) (r : Reply) :
    Settled (keep s (modChan t pf fun ch => { ch with cmd := some (afterRun cmd x y (.finish r t)).1 })) pf r :=
  ⟨(afterRun cmd x y (.finish r t)).1, by
    rw [chanOf_keep, chanOf_modChan_self], rfl⟩

/-- A handler that waits leaves the command working. -/
theorem working_afterRun (s t : State) (pf : Nat) (cmd : Running) (x y k : Bool) :
    Working (keep s (modChan t pf fun ch => { ch with cmd := some (afterRun cmd x y (.wait k t)).1 })) pf :=
  ⟨(afterRun cmd x y (.wait k t)).1, by
    rw [chanOf_keep, chanOf_modChan_self], rfl⟩

/-- What the search gives is in range and not in use; it gives something where a number of its range is not in use. -/
theorem seekFree_some (n : Nat) (used : Nat → Bool) (v k : Nat) (hn : 0 < n) :
    (∀ j, seekFree n used v k = some j → j < n ∧ used j = false) ∧
    ((∃ d, d < k ∧ used ((v + (n - (d + 1))) % n) = false) → (seekFree n used v k).isSome = true) := by
  induction k with
  | zero => exact ⟨fun j h => by simp [seekFree] at h, fun ⟨d, h, _⟩ => by omega⟩
  | succ k ih =>
    unfold seekFree
    split
    · rename_i hu
      refine ⟨ih.1, fun ⟨d, hd, hf⟩ => ih.2 ⟨d, ?_, hf⟩⟩
      rcases Nat.lt_succ_iff_lt_or_eq.mp hd with h | rfl
      · exact h
      · rw [hu] at hf; cases hf
    · rename_i hu
      refine ⟨fun j h => ?_, fun _ => rfl⟩
      cases h
      exact ⟨Nat.mod_lt _ hn, by simpa using hu⟩

/-- Where a number below `n` is free, the choice gives one that is. -/
theorem pickFree_some (s : State) (n : Nat) (used : Nat → Bool) (k : Nat) (hk : k < n) (hf : used k = false) :
    ∃ j, (pickFree s n used).1 = some j ∧ j < n ∧ used j = false := by
  have hn : 0 < n := by omega
  obtain ⟨v, hv⟩ : ∃ v, v = (free s).1.toNat := ⟨_, rfl⟩
  have e : (pickFree s n used).1 = seekFree n used v n := by rw [hv]; rfl
  have hs : (seekFree n used v n).isSome = true := by
    refine (seekFree_some n used v n hn).2 ?_
    have hvn := Nat.mod_lt v hn
    obtain ⟨i, hi, he⟩ : ∃ i, i < n ∧ (v + i) % n = k := by
      by_cases hc : v % n ≤ k
      · refine ⟨k - v % n, by omega, ?_⟩
        rw [Nat.add_mod, Nat.mod_eq_of_lt (show k - v % n < n by omega), show v % n + (k - v % n) = k by omega,
          Nat.mod_eq_of_lt hk]
      · refine ⟨k + n - v % n, by omega, ?_⟩
        rw [Nat.add_mod, Nat.mod_eq_of_lt (show k + n - v % n < n by omega),
          show v % n + (k + n - v % n) = k + n by omega, Nat.add_mod_right, Nat.mod_eq_of_lt hk]
    exact ⟨n - 1 - i, by omega, by rw [show n - (n - 1 - i + 1) = i by omega, he]; exact hf⟩
  obtain ⟨j, hj⟩ := Option.isSome_iff_exists.mp hs
  exact ⟨j, by rw [e, hj], (seekFree_some n used v n hn).1 j hj⟩

/-- While a connection number is free, a creation gets one below 2^20. -/
theorem newConn_some (s : State) (k : Nat) (hk : k < 2 ^ 20)
    (hf : ((tget s.wove.conns k).isSome || s.wove.freed.contains k) = false) :
    ∃ j, (newConn s).1 = some j ∧ j < 2 ^ 20 := by
  obtain ⟨j, hj, hl, -⟩ := pickFree_some s (2 ^ 20)
    (fun n => (tget s.wove.conns n).isSome || s.wove.freed.contains n) k hk hf
  refine ⟨j, ?_, hl⟩
  unfold newConn
  simp only [hj]

/-- While a window number is free, an opening gets one below 2^22. -/
theorem newWindow_some (s : State) (k : Nat) (hk : k < 2 ^ 22)
    (hf : ((tget s.wove.windows k).isSome || s.wove.winFreed.contains k) = false) :
    ∃ j, (newWindow s).1 = some j ∧ j < 2 ^ 22 := by
  obtain ⟨j, hj, hl, -⟩ := pickFree_some s (2 ^ 22)
    (fun n => (tget s.wove.windows n).isSome || s.wove.winFreed.contains n) k hk hf
  refine ⟨j, ?_, hl⟩
  unfold newWindow
  simp only [hj]

end Sys2Proof.Machine
end

