-- ==== Sys2Proof/Tests/Slice0.lean ====
section
/-! SUPPORT. Witnesses that the hypotheses of the statements can be met, clause by clause, the smoke test of WellFormed,
and small tests of single steps. -/

namespace Sys2Proof.Tests

set_option Elab.async false

open Sys2Proof Sys2Proof.Machine

/-! ## States the tests start from -/

def fn0 : Fn := { memEn := true, bme := true, msixEn := true }

/-- A clocked device with both host links up, the firmware ready and the configuration committed. -/
def base : State :=
  { State.reset with
    power := .run
    grade := { cfgCommitted := true }
    cores := { State.reset.cores with fwReady := true }
    host := { State.reset.host with
      perstLow := false
      fns := [(0, fn0), (1, fn0)]
      links := [(0, { up := true, ready := true, width := 16, active := 16, speed := 6, pm := 0 }),
        (1, { up := true, ready := true })] } }

def setG (s : State) (g : Grade) : State := { s with grade := { s.grade with cur := g } }
def setR (s : State) (a v : Nat) : State := wr s a (BitVec.ofNat 32 v)
def setF (s : State) (a hi lo v : Nat) : State := setFld s a hi lo v

/-- A command header of an opcode, a target, a parameter length and an output length. -/
def hdrOf (code target plen outLen : Nat) : List Byte :=
  toLe 2 code ++ [1, 0] ++ toLe 2 77 ++ toLe 2 target ++ toLe 4 plen ++ toLe 4 outLen ++ toLe 8 0x1000 ++
    toLe 8 0x2000 ++ List.replicate 32 0

def pars (l : List Nat) : List Byte := l.flatMap (toLe 8)

/-- The state with a command accepted in the channel of a PF. -/
def withCmd (s : State) (pf code : Nat) (p : List Byte) (target : Nat := 0) : State :=
  { s with chans := tset s.chans pf { cmd := some { hdr := hdrOf code target p.length 0, phase := .accepted } } }

/-- Admission as a Bool, so that a concrete one is decided. -/
def admittedB (s : State) (pf code : Nat) (buf : ParamBuf) (p : List Byte) : Bool :=
  decide (pf < 8) && clocked s && match (chanOf s pf).cmd, opRow code with
  | some cmd, some row => decide (cmd.phase = .accepted) && decide (hdrOpcode cmd.hdr = code) &&
      decide (hdrBad false cmd.hdr = none) && decide (hdrParamLen cmd.hdr = p.length) && decide (p = [] ∨ buf = some p) &&
      gradeAllows row.grades s.grade.cur && (match row.scope with
        | .everyPf => true
        | .deviceWide => decide (pf = 0)
        | .function => mayName s pf (hdrTarget cmd.hdr))
  | _, _ => false

theorem admitted_of (s : State) (pf code : Nat) (buf : ParamBuf) (p : List Byte) (h : admittedB s pf code buf p = true) :
    Admitted s pf code buf p := by
  unfold admittedB at h
  unfold Admitted
  split at h
  · rename_i cmd row h1 h2
    simp only [Bool.and_eq_true, decide_eq_true_eq] at h
    obtain ⟨⟨a, b⟩, ⟨⟨⟨⟨⟨c, d⟩, e⟩, f⟩, g⟩, i⟩, j⟩ := h
    refine ⟨a, b, cmd, row, h1, c, d, e, f, g, h2, i, ?_⟩
    cases hr : row.scope <;> simp_all
  · simp at h

/-- The command answers a next state with the property. -/
def nextHas (o : Host.Outcome State Fault Refusal) (p : State → Bool) : Bool := match o with | .next t => p t | _ => false

theorem next_of (o : Host.Outcome State Fault Refusal) (p : State → Bool) (h : nextHas o p = true) :
    ∃ t, o = .next t ∧ p t = true := by
  cases o with
  | next t => exact ⟨t, rfl, h⟩
  | fault f => simp [nextHas] at h
  | refused r => simp [nextHas] at h

/-- Word `w` of a register of a kind is at the address. -/
def rowIs (v : Variant) (a w : Nat) (k : RegKind) : Bool :=
  match rowOf v a with | some (r, n) => decide (n = w) && decide (r.kind = k) | none => false

theorem row_of (v : Variant) (a w : Nat) (k : RegKind) (h : rowIs v a w k = true) :
    ∃ r, rowOf v a = some (r, w) ∧ r.kind = k := by
  unfold rowIs at h
  split at h
  · rename_i r n e
    simp only [Bool.and_eq_true, decide_eq_true_eq] at h
    exact ⟨r, by rw [e, h.1], h.2⟩
  · simp at h

/-! ## Well-formedness and decoding: what they refuse -/

/-- A MAC the variant has not, a lane, a table index, a function, a bank, a core, a register number and a domain out of
range. -/
theorem test_wf_refuses :
    Instr.wf .ax (.lldpduTransmit ⟨8, []⟩) = false ∧ Instr.wf .bx (.lldpduTransmit ⟨4, []⟩) = false ∧
    Instr.wf .ax (.passStart 10 none) = false ∧ Instr.wf .ax (.laneFailure 9 .stall) = false ∧
    Instr.wf .ax (.flrInitiate 4096) = false ∧ Instr.wf .ax (.nop 8 none) = false ∧
    Instr.wf .ax (.handoverComplete 256) = false ∧ Instr.wf .ax (.coreIdleEntry 64) = false ∧
    Instr.wf .ax (.chRecv 0 32 0) = false ∧ Instr.wf .ax (.domainClosed 29) = false ∧
    Instr.wf .ax (.thermalTrip 64) = false ∧ Instr.wf .ax (.avsFault 2) = false := by decide

theorem test_wf_accepts :
    Instr.wf .ax (.lldpduTransmit ⟨7, []⟩) = true ∧ Instr.wf .ax (.passStart 9 none) = true ∧
    Instr.wf .ax (.flrInitiate 4095) = true ∧ Instr.wf .ax (.handoverComplete 255) = true ∧
    Instr.wf .ax (.chRecv 0 31 31) = true ∧ Instr.wf .ax (.domainClosed 28) = true := by decide

/-- The table gives its rows no bits, so no word spells a command. -/
theorem test_no_bits : decodeTableWord 0 0 = none ∧ decodeTableWord 32 0xFFFFFFFF = none := by decide

/-! ## The step -/

theorem witness_EmptyQueueTicks : base.pending = [] := rfl

theorem witness_StopsExactlyOnIllFormed :
    Instr.wf base.variant (.lldpduTransmit ⟨7, []⟩) = true ∧ Instr.wf base.variant (.lldpduTransmit ⟨8, []⟩) = false := by decide

theorem witness_QueueAndVariantKept : ∃ t, exec .idcode base = .next t ∧ true = true :=
  next_of _ (fun _ => true) (by decide +kernel)

theorem witness_MemoryStaysCanonical :
    MemoryCanonical { base with pending := [.idcode] } ∧ ∃ t, step { base with pending := [.idcode] } = .next t ∧ true = true :=
  ⟨rfl, next_of _ (fun _ => true) (by decide +kernel)⟩

theorem witness_PorHoldsTimeAndGrade :
    HeldAtReset { State.reset with pending := [.vddAonPowerUp] } ∧
    ∃ t, step { State.reset with pending := [.vddAonPowerUp] } = .next t ∧ decide (t.power = .porLow) = true :=
  ⟨fun _ => ⟨rfl, rfl, rfl⟩, next_of _ (fun t => decide (t.power = .porLow)) (by decide +kernel)⟩

def frozenState : State := setG base .frozen

theorem witness_FrozenLeftOnlyByPor : frozenState.power = .run ∧ frozenState.grade.cur = .frozen ∧
    ∃ t, exec .porAssert frozenState = .next t ∧ decide (t.grade.cur ≠ .frozen) = true :=
  ⟨rfl, rfl, next_of _ (fun t => decide (t.grade.cur ≠ .frozen)) (by decide +kernel)⟩

def ran : State := { base with deviceTime := 7 }

theorem witness_DeviceTimeOnlyPor :
    ∃ t, exec (.thermalTrip 63) ran = .next t ∧ decide (t.deviceTime ≠ ran.deviceTime) = true :=
  next_of _ (fun t => decide (t.deviceTime ≠ ran.deviceTime)) (by decide +kernel)

theorem witness_UnclockedCommandsDoNothing : clocked State.reset = false ∧
    ∃ t, exec .porRelease State.reset = .next t ∧ decide (t.power ≠ State.reset.power) = true :=
  ⟨rfl, next_of _ (fun t => decide (t.power ≠ State.reset.power)) (by decide +kernel)⟩

def handing : State := { base with
  mem := { spm := [(0, 1)], hbm := [] }
  memc := { base.memc with handover := [(0, (0x20000001, false))] } }

theorem witness_MemoryChangedOnlyBy :
    ∃ t, exec (.handoverComplete 0) handing = .next t ∧ decide (t.mem ≠ handing.mem) = true :=
  next_of _ (fun t => decide (t.mem ≠ handing.mem)) (by decide +kernel)

/-! ## Register access -/

def errEv : ErrEvent := { code := 1, cls := 0, unit := 5, fid := 0, details := [], time := 0 }

/-- The queue of the error log with room for one more. -/
def nearlyFull : State := { base with obs := { base.obs with errQ := List.replicate 15 errEv } }

theorem witness_IllegalSizeAccessRecorded :
    clocked nearlyFull = true ∧ Reaches nearlyFull (.fn 0) .bar0 ∧ Reaches nearlyFull (.fn 1) (.page 1) ∧
    Reaches nearlyFull (.fn 1) (.msix 1) ∧ ¬(4 = 4 ∧ 2 % 4 = 0) ∧ ¬(8 = 8 ∧ 4 % 8 = 0) ∧
    nearlyFull.obs.errQ.length < 16 :=
  ⟨by decide, (by decide +kernel : reachesBar0 nearlyFull (.fn 0) = true),
    ⟨rfl, by decide +kernel⟩, ⟨rfl, by decide +kernel⟩, by decide, by decide, by decide⟩

/-- Thread 0 of quire 0 runs, and core (unit 2) and PF 0 reach BAR 0. -/
def running : State := { setF base (Reg.QUIRE_STATUS 0) 2 0 2 with
  cores := { base.cores with cores := [(0, { threads := [(0, { st := 1 })] })] } }

theorem witness_RegisterReads_reach :
    clocked running = true ∧ ReadReaches running (.fn 0) Reg.DRY_SPENT ∧ ReadReaches running (.core 0) (Reg.QUIRE_STATUS 0) ∧
    Reg.DRY_SPENT % 4 = 0 :=
  ⟨by decide, (by decide +kernel : reachesBar0 running (.fn 0) = true),
    (by decide +kernel : hartRuns running 0 = true ∧ unitOf (Reg.QUIRE_STATUS 0) / 256 = 7), by decide⟩

theorem witness_RegisterReads_rows :
    (∃ r, rowOf running.variant Reg.DRY_SPENT = some (r, 0) ∧ r.kind = .counter) ∧
    (∃ r, rowOf running.variant (Reg.DRY_SPENT + 4) = some (r, 1) ∧ r.kind = .counter) ∧
    (∃ r, rowOf running.variant (Reg.DRY_TEMP 0) = some (r, 0) ∧ r.kind = .plain) :=
  ⟨row_of _ _ _ _ (by decide +kernel), row_of _ _ _ _ (by decide +kernel), row_of _ _ _ _ (by decide +kernel)⟩

/-- PF 0 reaches its page: the two words of a wide counter, and a word that is not of a pair. -/
theorem witness_RegisterReads_pages :
    clocked base = true ∧ pageReach base 0 = true ∧ 0x10018 % 4 = 0 ∧ 0x1001C % 4 = 0 ∧ pageWide 0x10018 = some 0 ∧
    pageWide 0x1001C = some 1 ∧ pageWide 0 = none := by decide +kernel

theorem witness_WideRegisterWrites :
    (clocked base = true ∧ reachesBar0 base (.fn 0) = true ∧ 0x03201000 % 4 = 0 ∧ 0x03201000 % 8 = 0 ∧
      unitOf 0x03201000 ≠ 0xB10 ∧ ¬(0x420 ≤ unitOf 0x03201000 ∧ unitOf 0x03201000 < 0x424 ∧ offsetOf 0x03201000 = 0x10)) ∧
    (∃ r, rowOf base.variant 0x03201000 = some (r, 0) ∧ r.kind = .wide) ∧
    (∃ r, rowOf base.variant 0x03201004 = some (r, 1) ∧ r.kind = .wide) :=
  ⟨by decide +kernel, row_of _ _ _ _ (by decide +kernel), row_of _ _ _ _ (by decide +kernel)⟩

/-- BOOT_REC_ADDR, with the recovery window closed, and the rate of PHC 0. -/
theorem witness_WideRegisterWrites_guarded :
    (unitOf 0x0B100000 = 0xB10 ∧ recActive base = false) ∧ recActive (setFld base Reg.BOOT_STATUS 2 0 3) = true ∧
    (0x420 ≤ unitOf 0x04200010 ∧ unitOf 0x04200010 < 0x424 ∧ offsetOf 0x04200010 = 0x10) ∧
    (∃ r, rowOf base.variant 0x04200010 = some (r, 0) ∧ r.kind = .wide) ∧
    (∃ r, rowOf base.variant 0x04200014 = some (r, 1) ∧ r.kind = .wide) :=
  ⟨by decide +kernel, by decide +kernel, by decide +kernel, row_of _ _ _ _ (by decide +kernel), row_of _ _ _ _ (by decide +kernel)⟩

theorem witness_RegisterWriteStores :
    (clocked base = true ∧ reachesBar0 base (.fn 0) = true ∧ Reg.HIF_CPL_TIMEOUT % 4 = 0 ∧
      unitOf Reg.HIF_CPL_TIMEOUT / 256 ∈ [1, 2, 5, 7] ∧ unitOf 0x01000FF0 / 256 ∈ [1, 2, 5, 7] ∧
      rowOf base.variant 0x01000FF0 = none) ∧
    (∃ r, rowOf base.variant Reg.HIF_CPL_TIMEOUT = some (r, 0) ∧ r.kind = .plain) :=
  ⟨by decide +kernel, row_of _ _ _ _ (by decide +kernel)⟩

theorem witness_RegisterWriteStores_enabled :
    (∃ r, rowOf base.variant Reg.WOV_CFG = some (r, 0) ∧ r.kind = .plain) ∧ flag base Reg.WOV_CFG 0 = false ∧
    flag (setF base Reg.WOV_CFG 0 0 1) Reg.WOV_CFG 0 = true := ⟨row_of _ _ _ _ (by decide +kernel), by decide +kernel⟩

theorem witness_AccessTypesBitwise : 31 < 32 ∧ ({ base := 0x01000010, w1c := 0xF } : RegRow).checks = [] := ⟨by decide, rfl⟩

/-! ## Clocks and grades -/

def inGrade (cur : Grade) (target : Option Grade) : State :=
  { base with grade := { cur := cur, target := target, cfgCommitted := true } }

theorem witness_GradeRequestAnswers :
    (clocked base = true ∧ reachesBar0 base (.fn 0) = true ∧
      reachesBar0 (inGrade .throughput (some .drain)) (.fn 0) = true ∧ clocked (inGrade .throughput (some .drain)) = true) ∧
    (inGrade .throughput (some .drain)).grade.target ≠ none ∧
    (base.grade.target = none ∧ base.grade.cur = gradeOf (bits 0 2 0)) ∧
    (base.grade.target = none ∧ base.grade.cur ≠ gradeOf (bits 1 2 0) ∧
      GradeTable base.grade.cur (gradeOf (bits 1 2 0)) base.obs.armed = true) ∧
    (base.grade.cur ≠ gradeOf (bits 5 2 0) ∧ GradeTable base.grade.cur (gradeOf (bits 5 2 0)) base.obs.armed = false) := by
  decide +kernel

theorem witness_GradeConditions : GradeConditions base (gradeOf (bits 1 2 0)) ∧ GradeConditions base (gradeOf 1) := by
  constructor <;> (unfold GradeConditions; decide +kernel)

def setGrade (cur : Grade) (target : Option Grade) (n : Nat) : State := withCmd (inGrade cur target) 0 2 (pars [n])

theorem witness_GradeSetAnswers :
    (Admitted (setGrade .throughput (some .drain) 7) 0 2 (some (pars [7])) (pars [7]) ∧
      Admitted (setGrade .provision none 0) 0 2 (some (pars [0])) (pars [0]) ∧
      Admitted (setGrade .provision none 1) 0 2 (some (pars [1])) (pars [1]) ∧
      Admitted (setGrade .provision none 5) 0 2 (some (pars [5])) (pars [5])) ∧
    ((pars [7]).length = 8 ∧ slot (pars [7]) 0 < 8 ∧ gradeOf (slot (pars [0]) 0) = .provision ∧
      GradeTable .provision (gradeOf (slot (pars [1]) 0)) false = true ∧
      GradeTable .provision (gradeOf (slot (pars [5]) 0)) false = false) :=
  ⟨⟨admitted_of _ _ _ _ _ (by decide +kernel), admitted_of _ _ _ _ _ (by decide +kernel),
    admitted_of _ _ _ _ _ (by decide +kernel), admitted_of _ _ _ _ _ (by decide +kernel)⟩, by decide +kernel⟩

def ownGrade : State := { inGrade .drain (some .drain) with
  chans := [(0, { cmd := some { hdr := hdrOf 2 0 8 0, phase := .working } })]
  grade := { cur := .drain, target := some .drain, byPf := some 0 } }

/-- The third clause's submission, on the channel that runs the GRADE_SET; the first two as for GradeRequestAnswers and
GradeSetAnswers. -/
theorem witness_SecondTransitionRefused : ownGrade.grade.target ≠ none ∧ 0 < 8 ∧ clocked ownGrade = true ∧
    pageReach ownGrade 0 = true ∧ (chanOf ownGrade 0).cmd.map (fun c => hdrOpcode c.hdr) = some 2 := by decide +kernel

theorem witness_GradeTransitionEvents :
    (clocked (inGrade .throughput (some .drain)) = true ∧ (inGrade .throughput (some .drain)).grade.cur ≠ .drain) ∧
    (clocked (inGrade .capped (some .throughput)) = true ∧ dryerDomainsBack (inGrade .capped (some .throughput)) = true) ∧
    (clocked ownGrade = true ∧ ownGrade.grade.target = some .drain ∧ ownGrade.grade.cur = .drain ∧
      noFetchedWork ownGrade = true ∧ ownGrade.grade.byPf = some 0 ∧
      (chanOf ownGrade 0).cmd.map (fun c => (hdrOpcode c.hdr, c.phase)) = some (2, .working)) := by decide +kernel

def sealing : State := inGrade .provision (some .sealed)

theorem witness_GradeTransitionEvents_sealed :
    clocked sealing = true ∧ sealing.grade.target = some .sealed ∧ sealing.grade.cur ≠ .capped ∧ unsealedTx sealing = false := by
  decide +kernel

def stretched : State := { base with
  grade := { base.grade with rootSyncE := true }
  dry := { base.dry with stretching := [1] } }

theorem witness_ClockEvents : clocked stretched = true ∧ stretched.grade.rootSyncE = true ∧ monLive stretched 255 = true ∧
    (0 : Byte).toNat < fld stretched (Reg.CAL_RAIL_CFG (monRail 255)) 15 8 ∧ 1 ∈ stretched.dry.stretching := by decide +kernel

/-! ## The dryer -/

def capSet (n : Nat) : State := withCmd base 0 0x0900 (pars [n])
def domSet (s : State) (d way : Nat) : State := withCmd s 0 0x0901 (pars [d, way, noneSlot])
def domIs (d st : Nat) : State := setF base (Reg.DRY_DOMAIN_STATE d) 2 0 st

theorem witness_DryerCommands :
    (Admitted (capSet 120) 0 0x0900 (some (pars [120])) (pars [120]) ∧ Admitted (capSet 300) 0 0x0900 (some (pars [300])) (pars [300]) ∧
      Admitted (capSet 301) 0 0x0900 (some (pars [301])) (pars [301])) ∧
    (Admitted (domSet (domIs 9 2) 9 0) 0 0x0901 (some (pars [9, 0, noneSlot])) (pars [9, 0, noneSlot]) ∧
      Admitted (domSet (domIs 9 0) 9 0) 0 0x0901 (some (pars [9, 0, noneSlot])) (pars [9, 0, noneSlot]) ∧
      Admitted (domSet (domIs 28 0) 28 1) 0 0x0901 (some (pars [28, 1, noneSlot])) (pars [28, 1, noneSlot])) ∧
    Admitted (withCmd base 0 0x0902 []) 0 0x0902 none [] :=
  ⟨⟨admitted_of _ _ _ _ _ (by decide +kernel), admitted_of _ _ _ _ _ (by decide +kernel),
    admitted_of _ _ _ _ _ (by decide +kernel)⟩, ⟨admitted_of _ _ _ _ _ (by decide +kernel),
    admitted_of _ _ _ _ _ (by decide +kernel), admitted_of _ _ _ _ _ (by decide +kernel)⟩,
    admitted_of _ _ _ _ _ (by decide +kernel)⟩

theorem witness_DryerCommands_clauses :
    (120 ≤ slot (pars [120]) 0 ∧ slot (pars [300]) 0 ≤ 300 ∧ 300 < slot (pars [301]) 0 ∧ (pars [120]).length = 8) ∧
    ((pars [9, 0, noneSlot]).length = 24 ∧ slotOpt (pars [9, 0, noneSlot]) 2 = none ∧ slot (pars [9, 0, noneSlot]) 1 = 0 ∧
      mayOpen (domSet (domIs 9 2) 9 0) 9 = true ∧ fld (domSet (domIs 9 2) 9 0) (Reg.DRY_DOMAIN_STATE 9) 2 0 = 2 ∧
      mayOpen (domSet (domIs 9 0) 9 0) 9 = true ∧ fld (domSet (domIs 9 0) 9 0) (Reg.DRY_DOMAIN_STATE 9) 2 0 = 0) ∧
    (slot (pars [28, 1, noneSlot]) 0 < 29 ∧ slot (pars [28, 1, noneSlot]) 1 = 1 ∧
      domPresent (domSet (domIs 28 0) 28 1) 28 = true ∧ mayClose (domSet (domIs 28 0) 28 1) 28 = true ∧
      fld (domSet (domIs 28 0) 28 1) (Reg.DRY_DOMAIN_STATE 28) 2 0 = 0) := by decide +kernel

def bxCap (n : Nat) : State := { capSet n with variant := .bx }

theorem witness_DryerCommands_bx :
    Admitted (bxCap 190) 0 0x0900 (some (pars [190])) (pars [190]) ∧ slot (pars [190]) 0 ≤ 190 ∧
    Admitted (bxCap 191) 0 0x0900 (some (pars [191])) (pars [191]) ∧ 190 < slot (pars [191]) 0 :=
  ⟨admitted_of _ _ _ _ _ (by decide +kernel), by decide, admitted_of _ _ _ _ _ (by decide +kernel), by decide⟩

def closing (d : Nat) : State := { domIs d 0 with dry := { base.dry with toClose := [d] } }

theorem witness_DomainEvents :
    (clocked (closing 28) = true ∧ 28 ∈ (closing 28).dry.toClose ∧ fld (closing 28) (Reg.DRY_DOMAIN_STATE 28) 2 0 = 0 ∧
      DryStep.domain 28 ∉ (closing 28).dry.steps) ∧
    (fld (domIs 7 1) (Reg.DRY_DOMAIN_STATE 7) 2 0 = 1 ∧ domEmpty (domIs 7 1) 7 = true ∧ 7 ∉ (domIs 7 1).dry.reopen ∧
      fld (domIs 27 1) (Reg.DRY_DOMAIN_STATE 27) 2 0 = 1 ∧ domEmpty (domIs 27 1) 27 = true) ∧
    fld (domIs 28 3) (Reg.DRY_DOMAIN_STATE 28) 2 0 = 3 ∧ fld (domIs 7 3) (Reg.DRY_DOMAIN_STATE 7) 2 0 = 3 := by decide +kernel

def budget : State := setF (setG base .throughput) Reg.DRY_FLOOR 8 0 400
def spentOut : State := { setF (setG base .throughput) (Reg.QUIRE_STATUS 0) 2 0 2 with
  dry := { base.dry with spent := [300000], lastAvail := 5 } }
def undoing : State := { setF base Reg.DRY_CFG 15 8 105 with dry := { base.dry with steps := [.quire 0] } }

theorem witness_BudgetEvents :
    (clocked budget = true ∧ (∀ q ∈ budget.wq.queues, waitingItem q.2 = none) ∧
      effCap budget < fld budget Reg.DRY_FLOOR 8 0 ∧ budget.dry.overCap = false) ∧
    (clocked spentOut = true ∧ spentOut.dry.emergency = false ∧ spentOut.grade.cur = .throughput ∧
      available spentOut ≤ spentOut.dry.lastAvail ∧
      available spentOut < (fld spentOut Reg.DRY_CFG 31 24 * depth spentOut / 256 : Nat) ∧ slowable spentOut false ≠ []) ∧
    (clocked undoing = true ∧ undoing.dry.steps = [.quire 0] ∧ undoing.dry.emergency = false ∧
      (fld undoing Reg.DRY_CFG 23 16 * depth undoing / 256 : Nat) ≤ available undoing ∧
      ∀ i < 64, forecastOf undoing i + 3 ≤ tjLimit undoing) ∧
    7 < quireCount budget.variant := by decide +kernel

def resv0 : Resv := { mac := 7, cls := 0, opens := 100000, closes := 300000, tokens := 1000000, ramped := false }
def owned : State := { base with deviceTime := 20000000 }
def ramping : State := { owned with dry := { base.dry with resv := [{ resv0 with opens := 655360100000, closes := 655360300000 }] } }
def atMax : State := setF base (Reg.CAL_RAIL_STATUS 1) 9 0 900

theorem witness_VoltageEvents :
    (clocked ramping = true ∧ 7 < macCount ramping.variant ∧ (rampDue ramping 7).map Resv.closes = some 655360300000 ∧
      ramping.dry.ramps = [] ∧ 1 ∉ ramping.dry.avsHeld ∧ avsOwned ramping = true) ∧
    (clocked owned = true ∧ monRail 255 < 2 ∧ monLive owned 255 = true ∧ monRail 255 ∉ owned.dry.avsHeld ∧ avsOwned owned = true ∧
      (0 : Byte).toNat + fld owned (Reg.CAL_RAIL_CFG (monRail 255)) 23 16 < fld owned (Reg.CAL_RAIL_CFG (monRail 255)) 31 24 ∧
      0 < fld owned (Reg.CAL_RAIL_CFG (monRail 255)) 7 4) ∧
    (1 < 2 ∧ (if (1 : Nat) = 0 then 950 else 900) ≤ fld atMax (Reg.CAL_RAIL_STATUS 1) 9 0) := by decide +kernel

def hot : State := setF base (Reg.DRY_TEMP 3) 15 8 120
def cooled : State := setF (setF base Reg.DRY_EFF_CAP 24 16 100) Reg.DRY_CFG 15 8 105

theorem witness_ThermalEvents :
    (clocked hot = true ∧ (∃ i < 64, tjLimit hot < forecastOf hot i)) ∧
    (clocked cooled = true ∧ (∀ i < 64, forecastOf cooled i + 3 ≤ tjLimit cooled) ∧
      fld cooled Reg.DRY_EFF_CAP 24 16 < gradeCap cooled) ∧
    (clocked base = true ∧ 63 < 64 ∧ 108 ≤ degrees (108 : Byte).toNat ∧ base.dry.emergency = false ∧
      ∀ i < 64, tempOf base i ≤ 100) := by decide +kernel

/-! ## Ports, MAC and headbox -/

def unsquelched (s : State) : State := { s with pkt := { s.pkt with squelched := false } }
def opened (s : State) : State := [21, 22, 23, 24, 25, 26].foldl (fun s d => setF s (Reg.DRY_DOMAIN_STATE d) 2 0 0) s

/-- Ports 0 to 3 enabled, the first three with their links up, in shapes 8 and 2. -/
def portUp (s : State) : State :=
  let s := opened (unsquelched s)
  let s := setF (setF s (Reg.MAC_LG_CFG 0) 3 0 8) (Reg.MAC_LG_CFG 1) 3 0 2
  let s := [0, 1, 2, 3].foldl (fun s m => setF s (Reg.MAC_PORT_CFG m) 16 16 1) s
  [0, 1, 2].foldl (fun s m => setF s (Reg.MAC_PORT_STATUS m) 0 0 1) s

def txf (n : Nat) : TxFrame := { bytes := List.replicate n 1, cls := 0, src := ⟨0, 0⟩, enq := 0 }
def withPort (s : State) (p : Port) : State := { s with pkt := { s.pkt with ports := [(0, p)] } }
def ready : State := opened (unsquelched base)
def ports : State := portUp base

theorem witness_PortWrites :
    (clocked base = true ∧ reachesBar0 base (.fn 0) = true ∧ clocked ports = true ∧ reachesBar0 ports (.fn 0) = true ∧
      clocked ready = true ∧ reachesBar0 ready (.fn 0) = true ∧ 4 * 1 < macCount base.variant) ∧
    (8 < bits 9 3 0 ∧ bits 8 3 0 ≤ 8 ∧ portEn ports (4 * 0 + 3) = true ∧ (∀ i < 4, portEn base (4 * 1 + i) = false) ∧
      reservesFit (setFld base (Reg.MAC_LG_CFG 1) 3 0 (bits 8 3 0)) = true) ∧
    (7 < macCount base.variant ∧ bits 0x10000 16 16 = 1 ∧ ready.pkt.squelched = false ∧ portEn ready 0 = false ∧
      mayEnable (setF ready (Reg.MAC_LG_CFG 0) 3 0 8) 0 = true ∧ portEn (setF ready (Reg.MAC_LG_CFG 0) 3 0 8) 0 = false ∧
      portEn (setF ready (Reg.MAC_LG_CFG 1) 3 0 1) 4 = false ∧ mayEnable (setF ready (Reg.MAC_LG_CFG 1) 3 0 1) 4 = false) ∧
    (bits 0 16 16 = 0 ∧ ports.pkt.squelched = false ∧ portEn ports 3 = true ∧ base.pkt.squelched = true) ∧
    (flag (setF base (Reg.MAC_QI_LOCAL 7) 31 31 1) (Reg.MAC_QI_LOCAL 7) 31 = true ∧ bits 0x80001005 31 31 = 1) ∧
    (15 < 2 * macCount base.variant ∧ tapsFit 0x40 = true ∧ tapsFit 0x7F000000 = false) := by decide +kernel

def setL (s : State) (l : List (Nat × Nat × Nat × Nat)) : State := l.foldl (fun s x => setF s x.1 x.2.1 x.2.2.1 x.2.2.2) s
/-- Reserves that a shape with a port cannot fit: in the inlet, and in the egress region. -/
def inletFull : State := setL ready ((List.range 4).map fun m => (Reg.HBX_CLASS_CFG m 0, 15, 0, 60000))
def egressFull : State := setL ready ((List.range 4).map fun m => (Reg.DKL_EGR_CLASS m 0, 15, 0, 60000))

theorem witness_PortWrites_reserves :
    (clocked inletFull = true ∧ reachesBar0 inletFull (.fn 0) = true ∧ (∀ i < 4, portEn inletFull (4 * 0 + i) = false) ∧
      ∀ u, u = setFld inletFull (Reg.MAC_LG_CFG 0) 3 0 (bits 8 3 0) → reservesFit u = false ∧ inletCells u < inletReserved u) ∧
    (clocked egressFull = true ∧ reachesBar0 egressFull (.fn 0) = true ∧ (∀ i < 4, portEn egressFull (4 * 0 + i) = false) ∧
      ∀ u, u = setFld egressFull (Reg.MAC_LG_CFG 0) 3 0 (bits 8 3 0) → reservesFit u = false ∧ inletReserved u ≤ inletCells u) ∧
    26 ∈ groupDomains 1 ∧ bindsNow (setF ready (Reg.MAC_LG_CFG 0) 3 0 8) 0 7 = false ∧ bits 0x1005 31 31 = 0 := by
  refine ⟨⟨by decide +kernel, by decide +kernel, by decide +kernel, ?_⟩, ⟨by decide +kernel, by decide +kernel, by decide +kernel, ?_⟩,
    by decide +kernel, by decide +kernel, by decide⟩ <;> (rintro u rfl; decide +kernel)

def sleepy : State := setF (setF ports (Reg.MAC_PORT_CFG 1) 17 17 1) (Reg.MAC_QI_STATUS 1) 17 16 2
def heldPort : State := setF ports (Reg.MAC_PORT_STATUS 0) 2 2 1
def tuned : State := setF (setF ports (Reg.MAC_LANE_EQ_CTRL 0 0) 15 8 50) (Reg.MAC_LANE_EQ_CTRL 0 0) 0 0 1
def pendingTw : State := withPort ports { twPending := some 9 }

/-- MACsec on port 0 with SA 5, and the same in SEALED. -/
def macsecUp : State :=
  let s := setL ports [(Reg.CPH_PORT_CFG 0, 31, 31, 1), (Reg.CPH_PORT_CFG 0, 21, 0, 5)]
  { s with cph := { s.cph with sas := [(5, { valid := true, typ := 1, alg := 1, hard := 1000, seq := 7 })] } }
def macsecSealed : State := setG macsecUp .sealed
def busyPort : State := withPort ports { queues := [(0, [txf 64])], inTx := some (txf 70) }
def adapting : State := setL ports [(Reg.MAC_LANE_EQ_CTRL 0 0, 5, 3, 7)]
def training : State := setL ports [(Reg.MAC_LANE_EQ_CTRL 1 1, 6, 6, 1), (Reg.MAC_PORT_STATUS 0, 0, 0, 0)]

theorem witness_PortLineEvents_lanes :
    (clocked tuned = true ∧ 0 < 2 * macCount tuned.variant ∧ macOfLane tuned 0 = some 0 ∧ portEn tuned 0 = true ∧
      linkUp tuned 0 = true ∧ flag tuned (Reg.MAC_LANE_EQ_CTRL 0 0) 0 = true ∧
      (49 : Byte).toNat < fld tuned (Reg.MAC_LANE_EQ_CTRL 0 0) 15 8) ∧
    (clocked adapting = true ∧ macOfLane adapting 0 = some 0 ∧ portEn adapting 0 = true ∧ linkUp adapting 0 = true ∧
      flag adapting (Reg.MAC_LANE_EQ_CTRL 0 0) 0 = false ∧ flag adapting (Reg.MAC_LANE_EQ_CTRL 0 0) 4 = true) ∧
    (15 < 2 * macCount base.variant ∧ (macOfLane base 15).any (fun mac => portEn base mac && linkUp base mac) = false) ∧
    (clocked training = true ∧ portEn training 0 = true ∧ servesPort training 0 = true ∧ linkUp training 0 = false ∧
      [laneRate (shapeOf training (groupOf 0))].contains (laneRate (shapeOf training (groupOf 0))) = true ∧
      [7].contains (laneRate (shapeOf training (groupOf 0))) = false ∧ (lanesOf training 0).isEmpty = false ∧
      portEn ports 3 = true ∧ servesPort ports 3 = true ∧ linkUp ports 3 = false) := by decide +kernel

theorem witness_PortLineEvents_lldp :
    (clocked pendingTw = true ∧ portEn pendingTw 0 = true ∧ linkUp pendingTw 0 = true ∧
      flag pendingTw (Reg.CPH_PORT_CFG 0) 31 = false ∧ pendingTw.grade.cur ≠ .sealed ∧
      (portOf pendingTw 0).twPending = some 9) ∧
    (clocked macsecUp = true ∧ portEn macsecUp 0 = true ∧ linkUp macsecUp 0 = true ∧ fld macsecUp (Reg.CPH_PORT_CFG 0) 21 0 = 5 ∧
      flag macsecUp (Reg.CPH_PORT_CFG 0) 31 = true ∧ saUsable macsecUp 5 = true ∧ (saOf macsecUp 5).typ = 1 ∧
      macsecUp.grade.cur ≠ .sealed) ∧
    (clocked macsecSealed = true ∧ saUsable macsecSealed 5 = true ∧ macsecSealed.grade.cur = .sealed ∧
      saConf (saOf macsecSealed 5) = false ∧ portEn macsecSealed 1 = true ∧ linkUp macsecSealed 1 = true ∧
      flag macsecSealed (Reg.CPH_PORT_CFG 1) 31 = false) ∧
    portEn base 7 = false := by decide +kernel

theorem witness_PortLineEvents_idle :
    (clocked sleepy = true ∧ flag sleepy (Reg.MAC_PORT_CFG 1) 17 = true ∧ linkUp sleepy 1 = true ∧
      fld sleepy (Reg.MAC_QI_STATUS 1) 17 16 ≠ 0 ∧ flag sleepy (Reg.MAC_QI_STATUS 1) 18 = false ∧ txEmpty sleepy 1 = true ∧
      gateSoon sleepy 1 = false) ∧
    (clocked busyPort = true ∧ txEmpty busyPort 0 = false ∧ busyPort.grade.cur ≠ .standby ∧
      (setG busyPort .standby).grade.cur = .standby) := by decide +kernel

theorem witness_PortLineEvents_links :
    (clocked ports = true ∧ portEn ports 2 = true ∧ linkUp ports 2 = true ∧ flag ports (Reg.MAC_PORT_STATUS 2) 1 = false ∧
      flag ports (Reg.MAC_PORT_STATUS 2) 2 = false ∧ linkUp base 7 = false) ∧
    (clocked heldPort = true ∧ linkUp heldPort 0 = true ∧ flag heldPort (Reg.MAC_PORT_STATUS 0) 2 = true ∧
      ∀ c < 8, ∀ f ∈ queueOf (portOf heldPort 0) c, f.preload = false) := by decide +kernel

def rx0 (n : Nat) : RxFrame :=
  { bytes := List.replicate n 1, uncorrectable := 0, fcsBad := false, capture := 777, assembly := .whole
    corrected := 0 }
def dataPort : State := setG ports .throughput

theorem witness_ReceiveAndFlowControl_frames :
    (clocked dataPort = true ∧ 2 < macCount dataPort.variant ∧ portEn dataPort 2 = true ∧ linkUp dataPort 2 = true ∧
      dataPort.pkt.squelched = false ∧ dataOn dataPort = true ∧ dataOn ports = false ∧ base.pkt.squelched = true ∧
      portEn base 7 = false) ∧
    (0 < ({ rx0 70 with uncorrectable := 3 }).uncorrectable ∧ (rx0 70).uncorrectable = 0 ∧
      ({ rx0 70 with assembly := .assyError 2 }).assembly = .assyError 2 ∧
      ({ rx0 70 with assembly := .smdError 0 }).assembly = .smdError 0 ∧ (rx0 70).assembly = .whole ∧
      ({ rx0 70 with assembly := .fragments 2 }).assembly = .fragments (fragmentsOf (.fragments 2))) ∧
    ((rx0 63).bytes.length < 64 ∧ 64 ≤ (rx0 1519).bytes.length ∧
      maxFrame (setF dataPort (Reg.MAC_PORT_CFG 2) 13 0 1518) 2 < (rx0 1519).bytes.length ∧
      (rx0 64).bytes.length ≤ maxFrame dataPort 2 ∧ ({ rx0 64 with fcsBad := true }).fcsBad = true ∧
      beAt (rx0 64).bytes 12 2 ≠ 0x8808 ∧ (frerRecover dataPort 2 (rx0 64).bytes).1 = some (rx0 64).bytes) := by decide +kernel

def pauseRx : RxFrame := { rx0 0 with bytes := List.replicate 12 1 ++ [0x88, 8, 0, 1, 0, 9] ++ List.replicate 46 0 }
theorem witness_ReceiveAndFlowControl_control :
    pauseRx.bytes.length = 64 ∧ pauseRx.fcsBad = false ∧ beAt pauseRx.bytes 12 2 = 0x8808 ∧ beAt pauseRx.bytes 14 2 = 0x0001 := by
  decide +kernel

/-- A recovering stream of MAC 2 that takes no frame without an R-TAG. -/
def strict : State := { dataPort with time := { dataPort.time with streams := [(32767, {
  idMode := 1, idMac := 0x010101010101, idVid := 0, gen := false, portA := 0, portB := 0, recov := 1, rxPorts := 4, history := 8
  resetMs := 0, popTag := true, taglessPass := false })] } }

theorem witness_ReceiveAndFlowControl_eliminated :
    clocked strict = true ∧ portEn strict 2 = true ∧ linkUp strict 2 = true ∧ dataOn strict = true ∧
    (frerRecover strict 2 (rx0 64).bytes).1 = none := by decide +kernel

def xoff : State := setF (setF ports (Reg.HBX_CLASS_USED 0 0) 31 31 1) (Reg.MAC_PFC_CFG 0) 15 8 1

def pfc (v : Nat) : State := setF ports (Reg.MAC_PFC_CFG 0) 25 24 v

theorem witness_ReceiveAndFlowControl_flow :
    (clocked (pfc 1) = true ∧ portEn (pfc 1) 0 = true ∧ linkUp (pfc 1) 0 = true ∧ (pfc 1).pkt.squelched = false ∧
      fld (pfc 1) (Reg.MAC_PFC_CFG 0) 25 24 = 1 ∧ fld ports (Reg.MAC_PFC_CFG 0) 25 24 ≠ 1 ∧
      fld ports (Reg.MAC_PFC_CFG 0) 25 24 ≠ 2) ∧
    (fld (pfc 2) (Reg.MAC_PFC_CFG 0) 25 24 = 2 ∧
      7 ∈ ((List.range 8).filter fun p => (0x81 : Byte).getLsbD p && pfcIgnoreEff (pfc 2) 0 / 2 ^ p % 2 == 0) ∧
      (∀ q ∈ ((List.range 8).filter fun p => (0x81 : Byte).getLsbD p && pfcIgnoreEff (pfc 2) 0 / 2 ^ p % 2 == 0),
        7 < q → prioClass (pfc 2) 0 q ≠ prioClass (pfc 2) 0 7) ∧
      (∀ p ∈ ((List.range 8).filter fun p => (0x01 : Byte).getLsbD p && pfcIgnoreEff (pfc 2) 0 / 2 ^ p % 2 == 0),
        prioClass (pfc 2) 0 p ≠ 7) ∧
      (0x81 : Byte).toNat &&& pfcIgnoreEff (setF (pfc 2) (Reg.MAC_PFC_CFG 0) 7 0 0x80) 0 ≠ 0) ∧
    (clocked xoff = true ∧ flag xoff (Reg.HBX_CLASS_USED 0 (prioClass xoff 0 0)) 31 = true ∧
      flag xoff (Reg.MAC_PFC_CFG 0) (8 + 0) = true ∧ portEn xoff 0 = true ∧ linkUp xoff 0 = true ∧
      flag xoff (Reg.MAC_PFC_CFG 0) (8 + 7) = false) := by decide +kernel

def inf0 : InFrame :=
  { mac := 0, cls := 0, ctrl := false, pool := .none, cells := 0, bytes := List.replicate 64 1, ts := (0, 0), at' := 0 }
def arrivedAt (s : State) : State := { s with pkt := { s.pkt with arrived := [(0, [inf0])] } }
def roomy : State := arrivedAt (setF ports (Reg.HBX_CLASS_CFG 0 0) 15 0 100)
def cramped : State := arrivedAt (setF (setF ports (Reg.HBX_PORT_SHARE 0) 17 0 0) (Reg.HBX_CLASS_CFG 0 0) 15 0 0)

theorem witness_HeadboxRules_admission :
    (clocked roomy = true ∧ tgetD roomy.pkt.arrived 0 [] = [inf0] ∧ inf0.mac = 0 ∧
      roomy.pkt.unfilled.contains (rxRole roomy 0) = false ∧
      inletRule roomy 0 (inletClass roomy 0 inf0.bytes) (cellsOf 64) (isControl roomy inf0.bytes) = some .reserve) ∧
    (clocked cramped = true ∧ cramped.pkt.unfilled.contains (rxRole cramped 0) = false ∧
      inletRule cramped 0 (inletClass cramped 0 inf0.bytes) (cellsOf 64) (isControl cramped inf0.bytes) = none) := by
  decide +kernel

def unfilledRole : State := { arrivedAt ports with pkt := { (arrivedAt ports).pkt with unfilled := [0] } }

theorem witness_HeadboxRules_others :
    (clocked unfilledRole = true ∧ tgetD unfilledRole.pkt.arrived 0 [] = [inf0] ∧
      unfilledRole.pkt.unfilled.contains (rxRole unfilledRole 0) = true) ∧
    (7 < macCount base.variant ∧ tgetD base.pkt.arrived 7 [] = []) := by decide +kernel

theorem witness_HeadboxRules_writes :
    (reachesBar0 base (.fn 0) = true ∧ unitOf Reg.HBX_BUF_CFG = 0x308 ∧ base.grade.cur = .provision ∧
      inletReserved (regWrite base Reg.HBX_BUF_CFG 100000) ≤ inletCells (regWrite base Reg.HBX_BUF_CFG 100000) ∧
      egressReserved (regWrite base Reg.HBX_BUF_CFG 100000) ≤ egressRegion (regWrite base Reg.HBX_BUF_CFG 100000)) ∧
    (unitOf (Reg.HBX_CLASS_CFG 0 0) = 0x308 ∧ Reg.HBX_CLASS_CFG 0 0 ≠ Reg.HBX_BUF_CFG ∧
      (∀ v, v = regWrite (setF ports (Reg.HBX_BUF_CFG) 17 0 1000) (Reg.HBX_CLASS_CFG 0 0) 60000 →
        rd v (Reg.HBX_CLASS_CFG 0 0) ≠ rd (setF ports (Reg.HBX_BUF_CFG) 17 0 1000) (Reg.HBX_CLASS_CFG 0 0) ∧
        inletCells v < inletReserved v)) ∧
    (isEgressCfg (Reg.DKL_EGR_CLASS 0 0) = true ∧
      egressReserved (regWrite base (Reg.DKL_EGR_CLASS 0 0) 5) ≤ egressRegion (regWrite base (Reg.DKL_EGR_CLASS 0 0) 5)) ∧
    (∀ v, v = regWrite (setF ports Reg.HBX_BUF_CFG 17 0 196000) (Reg.DKL_EGR_CLASS 0 0) 60000 →
      rd v (Reg.DKL_EGR_CLASS 0 0) ≠ rd (setF ports Reg.HBX_BUF_CFG 17 0 196000) (Reg.DKL_EGR_CLASS 0 0) ∧
      egressRegion v < egressReserved v) := by
  refine ⟨by decide +kernel, ⟨by decide +kernel, by decide +kernel, ?_⟩, by decide +kernel, ?_⟩ <;>
    (rintro v rfl; decide +kernel)

/-! ## Pipes -/

theorem adm (s : State) (code : Nat) (p : List Byte) (h : admittedB s 0 code (some p) p = true) :
    Admitted s 0 code (some p) p := admitted_of s 0 code (some p) p h

def fr (n mac : Nat) : InFrame :=
  { mac := mac, cls := 1, ctrl := false, pool := .shared, cells := 1, bytes := List.replicate n 7, ts := (0, 0), at' := 0 }

/-- Pipes 0 to 7 active in roles 0 to 7, pipes 8 and 9 spare. -/
def active : State :=
  [0, 1, 2, 3, 4, 5, 6, 7].foldl (fun s p => setF (setF s (pipeRoleReg p) 2 0 3) (pipeRoleReg p) 11 8 p)
    (setF (setF base (pipeRoleReg 8) 2 0 2) (pipeRoleReg 9) 2 0 2)
def withInlet (l : List InFrame) (s : State) : State := { s with pkt := { s.pkt with inlet := [(0, l)] } }
def passing : State := withInlet [fr 64 0, fr 90 1] active
def retired : InFrame :=
  { fr 64 0 with pipe := some 0, seq := 3, verdict := some { bytes := [1, 2, 3], drop := some 4, counts := [1, 1, 2] } }
def retiring : State := withInlet [retired, fr 60 0] active
def sampled : State :=
  { setF (setF ports Reg.BRK_SAMPLE_CFG 31 30 3) (Reg.QUIRE_STATUS 0) 2 0 2 with
    pkt := { ports.pkt with samples := [⟨[1, 2, 3, 4, 5, 6, 7, 8, 9]⟩] } }
def noSpare : State := setF (setF active (pipeRoleReg 8) 2 0 4) (pipeRoleReg 9) 2 0 4
def testing : State := { setF (setF active (pipeRoleReg 8) 2 0 1) (pipeRoleReg 9) 2 0 1 with pkt := { base.pkt with unfilled := [2] } }
def joining : State := { active with pkt := { base.pkt with joins := [(0, 1), (3, 2)] } }
def admitting : State :=
  let s := [0, 1, 2, 3, 4, 5, 6, 7].foldl (fun s p => setF (setF s (pipeRoleReg p) 2 0 3) (pipeRoleReg p) 11 8 p) ports
  let s := setF (setF s (Reg.DKL_EGR_SHARE 0) 17 0 1000) (Reg.DKL_EGR_CLASS 0 2) 15 0 100
  withPort s { waiting := [{ bytes := List.replicate 64 2, cls := 2, src := ⟨0, 0⟩ }] }

theorem witness_PipeEvents_frames :
    (clocked passing = true ∧ pipeState passing 0 = 3 ∧ roleOf passing 0 < 4 ∧
      chooseStart passing 0 0 (inletOf passing (inletKey passing 0)) = some 0 ∧
      (inletOf passing (inletKey passing 0))[0]? = some (fr 64 0) ∧ (fr 64 0).passes = 0 ∧
      (tgetD passing.pkt.graphs (fld passing (Reg.PIPE_GRAPH_SEL 0) 1 0) {}).poison = []) ∧
    (clocked retiring = true ∧ pipeState retiring 0 = 3 ∧ roleOf retiring 0 < 4 ∧
      oldestStarted (inletOf retiring (inletKey retiring 0)) = some retired ∧ retired.pipe = some 0 ∧
      (retired.verdict.map fun v => v.drop) = some (some 4)) ∧
    (clocked sampled = true ∧ sampled.pkt.samples = [⟨[1, 2, 3, 4, 5, 6, 7, 8, 9]⟩] ∧ flag sampled Reg.BRK_SAMPLE_CFG 31 = true ∧
      flag sampled Reg.BRK_SAMPLE_CFG 30 = true ∧ (resolveCore sampled 0 0).1 = some 0 ∧ (epQueue sampled 0 0).length < 64) ∧
    (clocked admitting = true ∧ (portOf admitting 0).waiting = [{ bytes := List.replicate 64 2, cls := 2, src := ⟨0, 0⟩ }] ∧
      ∀ f, f = (portOf admitting 0).waiting.headD { bytes := [], cls := 0, src := ⟨0, 0⟩ } →
        needsMacsec admitting 0 f = false ∧ txStream admitting f = none ∧ portEn admitting 0 = true ∧
        flag admitting (Reg.MAC_PORT_STATUS 0) 1 = false ∧ carrierOf admitting (txRole admitting 0) ≠ none ∧
        f.bytes.length ≤ maxFrame admitting 0 ∧ f.bytes.length ≤ maxSdu admitting 0 f.cls ∧
        egressRule admitting 0 f.cls (cellsOf f.bytes.length) ≠ none ∧ bindsNow admitting 0 f.cls = false) := by
  refine ⟨by decide +kernel, by decide +kernel, by decide +kernel, by decide +kernel, by decide +kernel, ?_⟩
  rintro f rfl
  decide +kernel

theorem witness_PipeEvents_pipes :
    (clocked active = true ∧ pipeState active 9 = 2 ∧ pipeState active 7 = 3 ∧ spareOf active (pipeTx 7) = some 9 ∧
      spareOf noSpare (pipeTx 7) = none ∧ pipeState noSpare 7 = 3) ∧
    (clocked testing = true ∧ pipeState testing 9 = 1 ∧ (∀ r ∈ testing.pkt.unfilled, decide (4 ≤ r) ≠ pipeTx 9) ∧
      pipeState testing 8 = 1 ∧ testing.pkt.unfilled = [2] ∧ decide (4 ≤ 2) = pipeTx 8) ∧
    (clocked joining = true ∧ (∀ f, f ∈ inletOf joining 6 ++ inletOf joining 7 → f.pipe = none) ∧
      tget joining.pkt.moves 6 = none ∧ tget joining.pkt.moves 7 = none ∧ tget joining.pkt.joins 0 = some 1 ∧
      tget joining.pkt.joins 3 = some 2) := by decide +kernel

def passed : InFrame := { fr 64 0 with passes := 1, pipe := some 0 }
/-- Pipe 0 has 300 recirculated frames, and this one again. -/
def recirculating : State :=
  let s := withInlet [passed] active
  { s with pkt := { s.pkt with slots := [(0, { recirc := 300 })] } }
def txg (pass : Option (Nat × Nat)) : TxFrame := { bytes := List.replicate 64 2, cls := 2, src := ⟨0, 0⟩, pass := pass }
def txQueued (l : List TxFrame) : State := withPort active { queues := [(2, l)] }
def txStarted : State := txQueued [txg (some (4, 3)), txg (some (4, 7)), txg none]
def steered : InFrame := { retired with verdict := some { bytes := [1, 2, 3], steer := some (.port 1), counts := [4] } }
def toCore : InFrame := { retired with verdict := some { bytes := [1], steer := some (.core 1 1 3) } }

theorem witness_PipeEvents_passes :
    (clocked recirculating = true ∧ pipeState recirculating 0 = 3 ∧ passed.passes ≠ 0 ∧
      chooseStart recirculating 0 0 (inletOf recirculating (inletKey recirculating 0)) = some 0 ∧
      (inletOf recirculating (inletKey recirculating 0))[0]? = some passed ∧ 256 ≤ (tgetD recirculating.pkt.slots 0 {}).recirc ∧
      (tgetD passing.pkt.graphs (passSlot passing 0 (fr 64 0)) {}).poison = []) ∧
    (pipeState (txQueued [txg none]) 4 = 3 ∧ roleOf (txQueued [txg none]) 4 = 4 ∧
      (chooseTx (txQueued [txg none]) 4 (inletKey (txQueued [txg none]) 4)).map Prod.fst = some 0) ∧
    (pipeState txStarted 4 = 3 ∧ txPasses txStarted (inletKey txStarted 4) = [(4, 3), (4, 7)] ∧
      ∀ y ∈ txPasses txStarted (inletKey txStarted 4), y = (4, 3) ∨ 3 < y.2) ∧
    (steered.verdict.map (fun v => (v.drop, steersToCore v)) = some (none, false) ∧
      toCore.verdict.map steersToCore = some true) ∧
    (base.pkt.samples = [] ∧ flag base Reg.BRK_SAMPLE_CFG 31 = false) := by decide +kernel

def moving : State := { active with pkt := { base.pkt with moves := [(1, 8), (5, 9)] } }
def turning : State :=
  { setF admitting (Reg.MAC_PORT_STATUS 0) 1 1 1 with pkt := { admitting.pkt with ports := [(0, { waiting := [txg none] })] } }

theorem witness_PipeEvents_moves :
    (txPasses joining 6 = [] ∧ txPasses joining 7 = []) ∧
    (clocked moving = true ∧ pairWhole moving 2 = false ∧ roleBusy moving 5 = false ∧ tget moving.pkt.moves 4 = none ∧
      tget moving.pkt.moves 5 = some 9 ∧ pipeState moving 9 = 2 ∧ holderOf moving 5 = some 5) ∧
    (clocked turning = true ∧ (portOf turning 0).waiting = [txg none] ∧ needsMacsec turning 0 (txg none) = false ∧
      txStream turning (txg none) = none ∧ turnsAway turning 0 = true ∧ (txg none).host = none ∧ (txg none).ts = none) := by
  decide +kernel

def splittable : State := setPair active 3 2

theorem witness_PipeControl_commands :
    Admitted (withCmd active 0 0x0320 (pars [8])) 0 0x0320 (some (pars [8])) (pars [8]) ∧
    Admitted (withCmd active 0 0x0320 (pars [6])) 0 0x0320 (some (pars [6])) (pars [6]) ∧
    Admitted (withCmd splittable 0 0x0321 (pars [6])) 0 0x0321 (some (pars [6])) (pars [6]) ∧
    Admitted (withCmd noSpare 0 0x0322 (pars [9])) 0 0x0322 (some (pars [9])) (pars [9]) ∧
    Admitted (withCmd active 0 0x0323 (pars [7, 9])) 0 0x0323 (some (pars [7, 9])) (pars [7, 9]) ∧
    (pairState active 3 = 0 ∧ pairBroken active 3 = false ∧ pairState splittable 3 = 2 ∧ pairBroken splittable 3 = false ∧
      portEn splittable (4 * 1) = false ∧ pipeState noSpare 9 = 4 ∧ pipeState active 9 ≠ 4 ∧ pipeState active 9 = 2 ∧
      pipeTx 9 = decide (4 ≤ 7) ∧ carrierOf active 7 ≠ none) :=
  ⟨adm _ _ _ (by decide +kernel), adm _ _ _ (by decide +kernel), adm _ _ _ (by decide +kernel),
    adm _ _ _ (by decide +kernel), adm _ _ _ (by decide +kernel), by decide +kernel⟩

/-- A role that is not the first of a pair is refused. -/
theorem witness_PipeControl_refused :
    Admitted (withCmd active 0 0x0320 (pars [7])) 0 0x0320 (some (pars [7])) (pars [7]) ∧ slot (pars [7]) 0 % 2 = 1 ∧
    Admitted (withCmd active 0 0x0322 (pars [9])) 0 0x0322 (some (pars [9])) (pars [9]) ∧ pipeState active 9 ≠ 4 :=
  ⟨adm _ _ _ (by decide +kernel), by decide, adm _ _ _ (by decide +kernel), by decide +kernel⟩

theorem witness_PipeControl_writes :
    clocked splittable = true ∧ reachesBar0 splittable (.fn 0) = true ∧ roleOf splittable 7 < 8 ∧
    pairJoined splittable (roleOf splittable 7 / 2) = true ∧ holderOf splittable 6 = some 6 ∧
    (((List.range 8).map fun d => if d = 7 then bits 0x83E80001 25 16 else fld active (Reg.PIPE_INLET_CLASS 9 d) 25 16).sum ≤ 1000) ∧
    (1000 < ((List.range 8).map fun d => if d = 7 then bits 0x83E90001 25 16 else fld active (Reg.PIPE_INLET_CLASS 9 d) 25 16).sum) := by
  decide +kernel

/-! ## The deckle -/

def portScheduled (s : State) : State :=
  setF (setF (setF s (Reg.DKL_PORT_CFG 0) 0 0 1) (Reg.DKL_CLASS_CFG 0 3) 31 30 3) (Reg.DKL_PORT_CFG 0) 19 16 2
def lst : DklList := { base := 0, cycle := 4000000, ext := 0, entries := [
  { gates := 8, op := 0, interval := 1000000 }, { gates := 0xF7, op := 2, interval := 1000000 },
  { gates := 0, op := 1, interval := 1000000 }, { gates := 0x18, op := 0, interval := 1000000 }] }
def adminList : Port := { admin := (List.range 4).map fun i => (i, lst.entries.getD i ⟨0, 0, 0, 0⟩) }
def commitP (n : Nat) : List Byte := pars [0] ++ fullTimeBytes (5 * 65536 * 1000) ++ [0, 0, 0, 0] ++ pars [4000000, 0, n]
def committed (n : Nat) : DklList :=
  { base := fullTime (slotBytes (commitP n) 1 12), cycle := 4000000, ext := 0, entries :=
    (List.range n).map fun i => tgetD adminList.admin i { gates := 0, op := 0, interval := 0 } }
def frerP : List Byte := pars [32767, 1, 0x10000, 4095, 1, 7, 0xF, 0, 3, 0, 0, 0, 1]
def stream0 : Stream := {
  idMode := 0, idMac := 0, idVid := 0, gen := false, portA := 0, portB := 0, recov := 1, rxPorts := 0, history := 0
  resetMs := 0, popTag := true, taglessPass := true }
def streaming : State := { base with time := { base.time with streams := [(32767, stream0)] } }
def slotted : State := modFn base 0 fun f => { f with trigSlots := [9, 10] }

theorem witness_DeckleCommands_writes :
    clocked base = true ∧ reachesBar0 base (.fn 0) = true ∧ 7 < macCount base.variant ∧ portEn base 7 = false ∧
    clocked ports = true ∧ reachesBar0 ports (.fn 0) = true ∧ portEn ports 0 = true ∧
    isSched ports 0 7 ≠ (bits 0x80000000 31 31 == 1) := by decide +kernel

theorem witness_DeckleCommands_lists :
    (Admitted (withCmd base 0 0x0400 (pars [7, 4095, 1, 77])) 0 0x0400 (some (pars [7, 4095, 1, 77])) (pars [7, 4095, 1, 77]) ∧
      Admitted (withCmd (withPort base adminList) 0 0x0401 (commitP 1)) 0 0x0401 (some (commitP 1)) (commitP 1) ∧
      Admitted (withCmd (withPort base adminList) 0 0x0401 (commitP 2)) 0 0x0401 (some (commitP 2)) (commitP 2) ∧
      Admitted (withCmd (withPort base { oper := some (lst, 7) }) 0 0x0402 (pars [0, 1])) 0 0x0402 (some (pars [0, 1])) (pars [0, 1])) ∧
    ((commitP 1).length = 48 ∧ fullTimeNs (slotBytes (commitP 1) 1 12) < giga ∧ leAt (commitP 1) 20 4 = 0 ∧
      2000 ≤ slot (commitP 1) 3 ∧ slot (commitP 1) 3 ≤ 8000000000 ∧ slot (commitP 1) 4 ≤ slot (commitP 1) 3 ∧
      1 ≤ slot (commitP 1) 5 ∧ slot (commitP 1) 5 ≤ 4096 ∧
      (committed 1).entries.all (entryOk (withPort base adminList) 0) = true ∧
      windowsOk (withPort base adminList) 0 (committed 1) = true ∧ pendClose (withPort base adminList) 0 = false ∧
      (committed 2).entries.all (entryOk (withPort base adminList) 0) = false) :=
  ⟨⟨adm _ _ _ (by decide +kernel), adm _ _ _ (by decide +kernel), adm _ _ _ (by decide +kernel),
    adm _ _ _ (by decide +kernel)⟩, by decide +kernel⟩

/-- A list that is pending close to its change refuses another. -/
def closePending : State := withPort base { adminList with pend := some (lst, 1000) }

theorem witness_DeckleCommands_busy :
    Admitted (withCmd closePending 0 0x0401 (commitP 1)) 0 0x0401 (some (commitP 1)) (commitP 1) ∧
    pendClose closePending 0 = true ∧ (committed 1).entries.all (entryOk closePending 0) = true ∧
    windowsOk closePending 0 (committed 1) = true ∧ (gateEn ports 0 ≠ (bits 1 0 0 == 1) ∨ portPhc ports 0 ≠ bits 0x201 9 8) :=
  ⟨adm _ _ _ (by decide +kernel), by decide +kernel⟩

theorem witness_DeckleCommands_streams :
    (Admitted (withCmd base 0 0x0408 frerP) 0 0x0408 (some frerP) frerP ∧
      Admitted (withCmd streaming 0 0x0409 (pars [32767])) 0 0x0409 (some (pars [32767])) (pars [32767]) ∧
      Admitted (withCmd base 0 0x040A (pars [32512, 256])) 0 0x040A (some (pars [32512, 256])) (pars [32512, 256]) ∧
      Admitted (withCmd slotted 0 0x0410 (pars [1, 1, 3, 3, 0, 0, 0, 0, 0])) 0 0x0410 (some (pars [1, 1, 3, 3, 0, 0, 0, 0, 0])) (pars [1, 1, 3, 3, 0, 0, 0, 0, 0]) ∧
      Admitted (withCmd slotted 0 0x0411 (pars [1])) 0 0x0411 (some (pars [1])) (pars [1])) ∧
    (frerP.length = 104 ∧ slotBe frerP 2 < 2 ^ 48 ∧ slot frerP 8 < 2 ^ macCount base.variant ∧
      tget streaming.time.streams 32767 ≠ none ∧ trigOf slotted 0 1 = some 10) :=
  ⟨⟨adm _ _ _ (by decide +kernel), adm _ _ _ (by decide +kernel), adm _ _ _ (by decide +kernel),
    adm _ _ _ (by decide +kernel), adm _ _ _ (by decide +kernel)⟩, by decide +kernel⟩

def atTime (s : State) (d : Nat) : State := { s with deviceTime := BitVec.ofNat 64 d }
def swapping : State := atTime (withPort (portScheduled base) { pend := some (lst, 0) }) 0
def cycling (d : Nat) : State := atTime (withPort (portScheduled base) { oper := some (lst, 0) }) d
def holding : State := setF (atTime (withPort (portScheduled ports) { oper := some (lst, 0) }) 1999999) (Reg.DKL_PREEMPT_CFG 0) 31 30 3

theorem witness_DeckleSchedule_lists :
    (clocked swapping = true ∧ (portOf swapping 0).pend = some (lst, 0) ∧ 0 ≤ phcNow swapping (portPhc swapping 0) ∧
      phcNow (withPort swapping { pend := some (lst, 65536) }) 0 < 65536) ∧
    (clocked (cycling 4010000) = true ∧ (portOf (cycling 4010000) 0).oper = some (lst, 0) ∧
      (portOf (cycling 4010000) 0).stepped = false ∧ yieldsTo (cycling 4010000) 0 (0 + 4000000 * halfNs) 0 = false ∧
      (portOf (cycling 4010000) 0).cycStart + 4000000 * halfNs ≤ phcNow (cycling 4010000) (portPhc (cycling 4010000) 0) ∧
      phcNow (cycling 3999999) 0 < (portOf (cycling 3999999) 0).cycStart + 4000000 * halfNs) ∧
    ((currentStarts (cycling 1000010) 0)[1]?.map (fun x => decide (x.1 ≤ phcNow (cycling 1000010) (portPhc (cycling 1000010) 0)))) =
      some true := by decide +kernel

theorem witness_DeckleSchedule_windows :
    (clocked holding = true ∧ gateEn holding 0 = true ∧ preemptActive holding 0 = true ∧ (portOf holding 0).hold = false ∧
      ∃ x ∈ holdStarts holding 0, x ≤ phcNow holding (portPhc holding 0) + up16 (holdAdvance holding 0) ∧
        phcNow holding (portPhc holding 0) ≤ x) ∧
    (flag (cycling 2950000) (Reg.MAC_PORT_STATUS 0) 2 = false ∧ (portOf (cycling 2950000) 0).waiting = [] ∧ gateEn (cycling 2950000) 0 = true ∧
      isSched (cycling 2950000) 0 3 = true ∧ (publishable (cycling 2950000) 0 3)[0]?.isSome = true) ∧
    (flag (cycling 2999900) (Reg.DKL_CLASS_CFG 0 3) 30 = true ∧ ∃ w ∈ windowsOf (cycling 2999900) 0 3,
      phcNow (cycling 2999900) (portPhc (cycling 2999900) 0) ≤ w.opens ∧ w.opens ≤ phcNow (cycling 2999900) (portPhc (cycling 2999900) 0) +
        (fld (cycling 2999900) (Reg.MAC_QI_STATUS 0) 15 0 * 10 + 100) * oneNs) := by decide +kernel

def lateFrame : TxFrame := { txf 70 with cls := 3, bound := some ⟨0, 4⟩ }
def late (held : Nat) : State :=
  setF (atTime (withPort (portScheduled ports) { oper := some (lst, 0), queues := [(3, [lateFrame, { txf 64 with cls := 3 }])] }) 1000000)
    (Reg.MAC_PORT_STATUS 0) 2 2 held

theorem witness_DeckleSchedule_late :
    ∀ h, h = 0 ∨ h = 1 → clocked (late h) = true ∧ (portOf (late h) 0).waiting = [] ∧
      flag (late h) (Reg.MAC_PORT_STATUS 0) 2 = (h == 1) ∧
      (queueOf (portOf (late h) 0) 3).filter (fun f => match f.bound with
        | some w => decide (windowEnd (late h) 0 3 w ≤ phcNow (late h) (portPhc (late h) 0)) | none => false) = [lateFrame] ∧
      lateFrame.host = none ∧ lateFrame.ts = none := by
  rintro h (rfl | rfl) <;> decide +kernel

theorem witness_DeckleSchedule_standby : (setG (cycling 0) .standby).grade.cur = .standby ∧ (cycling 0).grade.cur ≠ .standby := by
  decide +kernel

def firing : State := { cycling 1500000 with
  time := { base.time with
    trigs := [(0, { armed := true, mode := 1, time := 5 }), (4095, { armed := true, mode := 2, port := 0, cls := 3, edge := 1 })]
    streams := [(32767, stream0)] } }

theorem witness_DeckleSchedule_timers :
    clocked firing = true ∧
    (∀ x, x = tgetD firing.time.trigs 0 {} → x.armed = true ∧ x.owner = none ∧ x.mode = 1 ∧ x.period = 0 ∧
      0 ≤ shortDiff (shortTime (phcNow firing x.phc)) x.time) ∧
    (∀ x, x = tgetD firing.time.trigs 4095 {} → x.armed = true ∧ x.owner = none ∧ x.mode = 2 ∧ gateEn firing x.port = true ∧
      ∃ e ∈ edgesNear firing x.port ((phcNow firing (portPhc firing x.port) : Int) - x.offset * halfNs).toNat x.cls x.edge,
        (x.last : Int) < (e : Int) + x.offset * halfNs ∧ (e : Int) + x.offset * halfNs ≤ phcNow firing (portPhc firing x.port)) ∧
    (tget firing.time.streams 32767 = some stream0 ∧ stream0.recov ≠ 0 ∧ tget firing.time.streams 0 = none) := by
  refine ⟨by decide, ?_, ?_, by decide⟩ <;> (rintro x rfl; decide +kernel)

/-- A periodic trigger that is due in 1 ns, and one that is overdue by more than a period. -/
def waitingTrig : State := { cycling 1500000 with
  time := { base.time with trigs := [(0, { armed := true, mode := 1, time := 750001, period := 1000 }),
    (1, { armed := true, mode := 1, time := 5, period := 1000 })] } }

theorem witness_DeckleSchedule_periodic : clocked waitingTrig = true ∧
    shortDiff (shortTime (phcNow waitingTrig 0)) 750001 < 0 ∧ 1000 ≤ shortDiff (shortTime (phcNow waitingTrig 0)) 5 := by
  decide +kernel

def cq0 : Cq := { fid := 0, loc := 0, kind := 1, base := 0x1000, log2 := 6, shadow := 0, pasid := none, vector := 0, modCount := 0, modTime := 0 }
def queued : State := withPort dataPort { queues := [(0, [txf 64]), (2, [{ txf 90 with cls := 2 }])] }
def resumable : State := withPort dataPort { rest := some (txf 80) }
def verifying (attempts : Nat) : State :=
  { withPort (setF dataPort (Reg.DKL_PREEMPT_STATUS 0) 2 0 2) { attempts := attempts, inTx := some (txf 64) } with
    wq := { base.wq with cqs := [(1, { cq0 with held := [[1, 2, 3], [4]] })] } }

def cutting (p : Port) (d : Nat) : State :=
  atTime (withPort (setL dataPort [(Reg.DKL_PREEMPT_CFG 0, 31, 30, 3), (Reg.DKL_PREEMPT_STATUS 0, 2, 0, 5),
    (Reg.DKL_CLASS_CFG 0 0, 29, 29, 1)]) p) d
def cutNow : State := cutting { inTx := some (txf 1000), queues := [(2, [{ txf 90 with cls := 2 }])] } 40
def cutHold : State := cutting { inTx := some (txf 1000), hold := true } 40
def cutEarly : State := cutting { inTx := some (txf 1000), queues := [(2, [{ txf 90 with cls := 2 }])] } 0
def oversize : State := withPort (setF dataPort (Reg.MAC_PORT_CFG 0) 13 0 1518) { queues := [(0, [txf 1600])] }

theorem witness_Transmission_start :
    (clocked queued = true ∧ canStart queued 0 = true ∧ queued.grade.cur ≠ .sealed ∧ (portOf queued 0).inTx = none ∧
      choose queued 0 (classOrder queued 0) = some { txf 90 with cls := 2 } ∧
      { txf 90 with cls := 2 } ∈ queueOf (portOf queued 0) 2 ∧ 90 ≤ maxFrame queued 0) ∧
    (canStart oversize 0 = true ∧ oversize.grade.cur ≠ .sealed ∧ choose oversize 0 (classOrder oversize 0) = some (txf 1600) ∧
      txf 1600 ∈ queueOf (portOf oversize 0) 0 ∧ maxFrame oversize 0 < 1600) ∧
    (canStart (setG queued .sealed) 0 = true ∧ (setG queued .sealed).grade.cur = .sealed ∧ canStart base 7 = false) := by
  decide +kernel

theorem witness_Transmission_cut :
    (clocked cutNow = true ∧ canStart cutNow 0 = true ∧ cutNow.grade.cur ≠ .sealed ∧ (portOf cutNow 0).inTx = some (txf 1000) ∧
      cuts cutNow 0 = true ∧ choose cutNow 0 (expressOrder cutNow 0) = some { txf 90 with cls := 2 } ∧ 90 ≤ maxFrame cutNow 0) ∧
    (canStart cutHold 0 = true ∧ cutHold.grade.cur ≠ .sealed ∧ cuts cutHold 0 = true ∧
      choose cutHold 0 (expressOrder cutHold 0) = none ∧ (portOf cutHold 0).hold = true) ∧
    (canStart cutEarly 0 = true ∧ cutEarly.grade.cur ≠ .sealed ∧ (portOf cutEarly 0).inTx = some (txf 1000) ∧
      cuts cutEarly 0 = false) ∧
    (clocked resumable = true ∧ canStart resumable 0 = true ∧ resumable.grade.cur ≠ .sealed ∧
      (portOf resumable 0).rest = some (txf 80) ∧ (portOf resumable 0).inTx = none ∧ (portOf resumable 0).hold = false ∧
      choose resumable 0 (expressOrder resumable 0) = none) := by decide +kernel

theorem witness_Transmission_end :
    (clocked (verifying 9) = true ∧ (portOf (verifying 9) 0).inTx = some (txf 64) ∧ (portOf base 7).inTx = none) ∧
    (portEn (verifying 9) 0 = true ∧ linkUp (verifying 9) 0 = true ∧ fld (verifying 9) (Reg.DKL_PREEMPT_STATUS 0) 2 0 = 2 ∧
      (portOf (verifying 0) 0).attempts < fld (verifying 0) (Reg.DKL_PREEMPT_CFG 0) 3 0 ∧
      fld (verifying 9) (Reg.DKL_PREEMPT_CFG 0) 3 0 ≤ (portOf (verifying 9) 0).attempts ∧
      fld base (Reg.DKL_PREEMPT_STATUS 0) 2 0 ≠ 2 ∧ portEn base 7 = false) ∧
    (portEn dataPort 2 = true ∧ linkUp dataPort 2 = true ∧
      flag (setF dataPort (Reg.DKL_PREEMPT_CFG 2) 31 31 1) (Reg.DKL_PREEMPT_CFG 2) 31 = true) ∧
    (tget (verifying 9).wq.cqs 1 = some { cq0 with held := [[1, 2, 3], [4]] } ∧ cq0.kind = 1 ∧ cqFull cq0 = false ∧
      canRequest (verifying 9) 0 = true ∧ ((verifying 9).wq.queues.all fun x => x.2.cq != 1) = true) := by decide +kernel

/-! ## Time -/

def phcs : State := { atTime (setF base (Reg.TIM_PHC_CTRL 0) 0 0 1) 77 with
  time := { base.time with phcs := [(0, { base := 0x123456789, anchor := 5, rate := 77777, old := [(1, 2, 3)] })] } }

theorem witness_PhcCommands_rates :
    Admitted (withCmd phcs 0 0x0419 (pars [3, 2 ^ 38])) 0 0x0419 (some (pars [3, 2 ^ 38])) (pars [3, 2 ^ 38]) ∧
    Admitted (withCmd phcs 0 0x0419 (pars [3, 2 ^ 38 + 1])) 0 0x0419 (some (pars [3, 2 ^ 38 + 1])) (pars [3, 2 ^ 38 + 1]) ∧
    Admitted (withCmd phcs 0 0x0418 (pars [0, 3, 4])) 0 0x0418 (some (pars [0, 3, 4])) (pars [0, 3, 4]) ∧
    Admitted (withCmd phcs 0 0x0418 (pars [3, 3, 999999999])) 0 0x0418 (some (pars [3, 3, 999999999])) (pars [3, 3, 999999999]) ∧
    Admitted (withCmd phcs 0 0x041A (pars [0, 0])) 0 0x041A (some (pars [0, 0])) (pars [0, 0]) ∧
    Admitted (withCmd phcs 0 0x041B (pars [3])) 0 0x041B (some (pars [3])) (pars [3]) ∧
    (rateOk (signed 64 (2 ^ 38)) = true ∧ rateOk (signed 64 (2 ^ 38 + 1)) = false ∧ locked phcs 0 = true ∧
      locked phcs 3 = false ∧ 999999999 < giga) :=
  ⟨adm _ _ _ (by decide +kernel), adm _ _ _ (by decide +kernel), adm _ _ _ (by decide +kernel),
    adm _ _ _ (by decide +kernel), adm _ _ _ (by decide +kernel), adm _ _ _ (by decide +kernel), by decide +kernel⟩

theorem witness_PhcCommands_registers :
    clocked phcs = true ∧ reachesBar0 phcs (.fn 0) = true ∧
    rateOk (signed 40 (wideValue phcs (.fn 0) (Reg.TIM_PHC_RATE 3) 0x40 % 2 ^ 40)) = true ∧
    rateOk (signed 40 (wideValue phcs (.fn 0) (Reg.TIM_PHC_RATE 3) 0x41 % 2 ^ 40)) = false ∧
    bits 1 0 0 = 1 ∧ locked phcs 3 = false ∧ (rd phcs (Reg.TIM_PHC_STEP_NS 3)).toNat < giga ∧ locked phcs 0 = true ∧
    bits 0 0 0 = 0 := by decide +kernel

def badStep : State := setR phcs (Reg.TIM_PHC_STEP_NS 3) giga

theorem witness_PhcCommands_refused :
    Admitted (withCmd phcs 0 0x0418 (pars [3, 3, giga])) 0 0x0418 (some (pars [3, 3, giga])) (pars [3, 3, giga]) ∧
    giga ≤ slot (pars [3, 3, giga]) 2 ∧ clocked badStep = true ∧ locked badStep 3 = false ∧
    giga ≤ (rd badStep (Reg.TIM_PHC_STEP_NS 3)).toNat := ⟨adm _ _ _ (by decide +kernel), by decide +kernel⟩

def pps : State := setF (setF { base with deviceTime := 2000000000, time := { base.time with ppsHigh := [0] } } (Reg.TIM_PPS_IN_CFG 1) 3 0 15)
  (Reg.TIM_PPS_OUT_CFG 1) 31 31 1

theorem witness_PpsEvents : clocked pps = true ∧ flag pps (Reg.TIM_PPS_IN_CFG 1) 0 = true ∧ flag pps (Reg.TIM_PPS_IN_CFG 1) 3 = true ∧
    flag pps (Reg.TIM_PPS_OUT_CFG 1) 31 = true ∧ 1 ∉ pps.time.ppsHigh ∧ 0 ∈ pps.time.ppsHigh ∧
    ppsCrossed pps 1 = true := by decide +kernel

theorem witness_PpsEvents_nothing : flag pps (Reg.TIM_PPS_IN_CFG 0) 0 = false ∧ flag pps (Reg.TIM_PPS_IN_CFG 1) 3 ≠ false ∧
    flag pps (Reg.TIM_PPS_OUT_CFG 0) 31 = false ∧ ppsCrossed base 1 = false := by decide +kernel

/-! ## The couch ring -/

def msg (typ src dst hops : Nat) : List Byte :=
  toLe 1 typ ++ toLe 1 src ++ toLe 1 dst ++ toLe 1 hops ++ [0, 1, 0, 4, 0, 0, 0, 0, 0, 0, 0, 0, 1, 2, 3, 4]
def onRing (st : Nat) (r : RingState) : State :=
  { setF (setF (setF base Reg.CRG_CFG 31 29 7) Reg.BOOT_STRAPS 4 4 1) Reg.CRG_STATUS 9 8 st with
    time := { base.time with ring := r } }
def forOthers : RingRx := { bytes := msg 0xC1 5 6 62, good := true, ingress := 0, egress := 9 }

theorem witness_CouchRing_ports :
    (clocked (onRing 2 {}) = true ∧ ringState (onRing 2 {}) = 2 ∧ fld (onRing 2 {}) (Reg.CRG_PORT_ERR 1) 15 8 < 247 ∧
      fld (setF (onRing 2 {}) (Reg.CRG_PORT_ERR 1) 15 8 246) (Reg.CRG_PORT_ERR 1) 15 8 < 247) ∧
    (rfType forOthers.bytes = 0xC1 ∧ rfSrc forOthers.bytes ≠ nodeId (onRing 2 {}) ∧ rfDst forOthers.bytes ≠ nodeId (onRing 2 {}) ∧
      rfDst forOthers.bytes ≠ 0xFF ∧ rfHops forOthers.bytes < 63 ∧ forOthers.good = true ∧ (ring (onRing 2 {})).phase ≠ 2) ∧
    (ringState (onRing 2 { await := [(1, 7)] }) ≠ 1 ∧ (ring (onRing 2 { await := [(1, 7)] })).await = [(1, 7)] ∧ (ring (onRing 1 { phase := 3, inserts := [0, 1] })).phase = 3 ∧
      1 ∈ (ring (onRing 1 { phase := 3, inserts := [0, 1] })).inserts ∧
      fld (onRing 1 { phase := 3, inserts := [0, 1] }) (Reg.CRG_PORT_ERR 1) 7 0 < 247) := by decide +kernel

theorem witness_CouchRing_node :
    (flag (onRing 2 {}) Reg.CRG_CFG 30 = true ∧ flag (onRing 2 {}) Reg.CRG_CFG 29 = true ∧
      0 < shortDiff 1000 (shortTime (phcNow (onRing 2 {}) (ringPhc (onRing 2 {})))) ∧
      shortDiff 0 (shortTime (phcNow (onRing 2 {}) (ringPhc (onRing 2 {})))) ≤ 0) ∧
    (clocked (onRing 1 { phase := 1 }) = true ∧ (ring (onRing 1 { phase := 1 })).phase = 1 ∧ ringAllowed (onRing 1 { phase := 1 }) = true ∧
      (ring (onRing 1 { phase := 2 })).phase = 2 ∧ (ring (onRing 0 { retry := true })).retry = true ∧
      ringAllowed (onRing 0 { retry := true }) = true) ∧
    (reachesBar0 (onRing 1 {}) (.fn 0) = true ∧ ringState (onRing 1 {}) = 1 ∧ ringState (onRing 3 {}) = 3 ∧
      bits 0x80210000 31 31 = 1 ∧ flag (onRing 3 {}) Reg.BOOT_STRAPS 4 = true) ∧
    ringState base ≠ 2 := by decide +kernel

theorem witness_CouchRing_idle :
    ((ring (onRing 2 {})).waiting = [] ∧ RingIdle (onRing 2 {}) 0 ∧ RingIdle (onRing 2 {}) 1) ∧
    (ringState (onRing 1 { phase := 2 }) = 1 ∧ (ring (onRing 1 { phase := 2 })).buffer = [] ∧
      RingIdle (onRing 1 { phase := 2 }) 0 ∧ RingIdle (onRing 1 { phase := 2 }) 1) ∧
    (1 ∈ (ring (onRing 0 { retry := true, inserts := [1] })).inserts ∧ bits 0x00210000 31 31 = 0) := by
  unfold RingIdle; decide +kernel

def ringMsg : List Byte := pars [63, 1] ++ List.replicate 240 1

theorem witness_CouchRing_send :
    Admitted (withCmd (onRing 2 {}) 0 0x0420 ringMsg) 0 0x0420 (some ringMsg) ringMsg ∧
    Admitted (withCmd base 0 0x0420 (pars [0xFF, 0])) 0 0x0420 (some (pars [0xFF, 0])) (pars [0xFF, 0]) ∧
    (16 ≤ ringMsg.length ∧ ringMsg.length ≤ 256 ∧ slot ringMsg 0 < 64 ∧ slot ringMsg 1 < 2 ∧ slot (pars [0xFF, 0]) 0 = 0xFF) :=
  ⟨adm _ _ _ (by decide +kernel), adm _ _ _ (by decide +kernel), by decide +kernel⟩

/-! ## Wove -/

def conn0 : Conn := {
  fid := 0, proto := 1, peer := 9, ipVer := 4, localAddr := 1, peerAddr := 2, mac := 0, nextHop := 5, vid := 0, tc := 2
  dscp := 3, sport := 77, paths := 2, maxPayload := 1024, sq := 0, rq := 1, rcEn := true, rMax := 0, maxRd := 4
  nextPsn := 5, cumTx := 3, cum := 8, rqBase := 0, keyTx := 1, keyRx := 1, phaseStart := 0, rate := 8, cached := true }
def tx0 : WovTx := {
  psn := 3, op := 1, first := true, last := true, wr := none, seqAux := 0, key := 0, off := 0, aux := 0, payload := [1] }
def wr0 : WovWr := { idx := 0, op := 0x10, len := 20, key := 1, off := 0, imm := 0, addr := 0, pasid := none }
def que (loc type : Nat) : Queue := {
  fid := 0, loc := loc, type := type, base := 0, log2 := 6, pasid := none, cq := 0, tsq := none, mac := 0, tc := 0
  rxMeta := 0, dropReport := false }
def saWove : Sa := { valid := true, typ := 5, fid := 0 }

/-- Connection 0 and, of PF 1, connection 7; window 3; SA 1 of Wove; two queues of connection 0 and two free ones. -/
def wove (c : Conn) : State :=
  let s := modFn (setF dataPort Reg.WOV_CFG 31 0 0x12B70003) 0 fun f => { f with quota := [(4, 10), (5, 10)] }
  { s with
    wove := { s.wove with
      conns := [(0, c), (7, { conn0 with fid := 1 })]
      windows := [(3, ⟨0, none, 0x1000, 0x10000, 7, none, 5⟩)]
      gens := [(0, 0x3FF)] }
    cph := { s.cph with sas := [(1, saWove)] }
    wq := { s.wq with
      queues := [(4, { que 0 2 with conn := some 0 }), (5, { que 1 3 with conn := some 0 }), (6, que 2 2), (8, que 3 3)] } }

def createP : List Byte :=
  pars [0, 9, 4, 0x1000000000000, 0x2000000000000, 7, 0x5000000000000, 4094, 7, 63, 65535, 64, 8192, 2, 3, 100, 200, 1, 1, 1,
    0, 16]

theorem witness_WoveCommands_create :
    Admitted (withCmd (wove conn0) 0 0x0500 createP) 0 0x0500 (some createP) createP ∧
    (createP.length = 8 * (connAddr createP + 17) ∧ slot createP 0 = 0 ∧ slot createP 1 < 2 ^ 20 ∧ slot createP 2 = 4 ∧
      slotBe createP 3 < 2 ^ 32 ∧ slotBe createP 4 < 2 ^ 32 ∧ cslot createP 0 = 7 ∧ slotBe createP (connAddr createP + 1) < 2 ^ 48 ∧
      cslot createP 2 = 4094 ∧ cslot createP 3 = 7 ∧ cslot createP 4 = 63 ∧ cslot createP 5 = 65535 ∧ cslot createP 6 = 64 ∧
      cslot createP 7 = 8192 ∧ cslot createP 7 + connOverhead createP ≤ maxFrame (wove conn0) (cslot createP 0)) ∧
    (queueFree (wove conn0) 0 (cslot createP 8) 2 = true ∧ queueFree (wove conn0) 0 (cslot createP 9) 3 = true ∧
      cslot createP 10 < 2 ^ 32 ∧ cslot createP 11 < 2 ^ 32 ∧ saExists (wove conn0) (cslot createP 12) = true ∧
      (saOf (wove conn0) (cslot createP 13)).typ = 5 ∧ (saOf (wove conn0) (cslot createP 12)).fid = 0 ∧ cslot createP 14 ≤ 1 ∧ cslot createP 15 < 65536 ∧ cslot createP 16 = 16 ∧
      mayTake (wove conn0) 0 4 1 = true) :=
  ⟨adm _ _ _ (by decide +kernel), by decide +kernel, by decide +kernel⟩

def roceP : List Byte :=
  pars [1, 9, 4, 0x1000000000000, 0x2000000000000, 0, 0x5000000000000, 0, 7, 63, 65535, 1, 1024, 2, 3, 0xFFFFFFFF, 200, 1, 1, 1,
    0, 16]

theorem witness_WoveCommands_roce :
    Admitted (withCmd (wove conn0) 0 0x0500 roceP) 0 0x0500 (some roceP) roceP ∧
    (roceP.length = 8 * (connAddr roceP + 17) ∧ slot roceP 0 = 1 ∧ cslot roceP 6 = 1 ∧ roceMtu (cslot roceP 7) = true ∧
      (wove conn0).grade.cur ≠ .sealed ∧ cslot roceP 7 + connOverhead roceP ≤ maxFrame (wove conn0) (cslot roceP 0) ∧
      queueFree (wove conn0) 0 (cslot roceP 8) 2 = true ∧ queueFree (wove conn0) 0 (cslot roceP 9) 3 = true) :=
  ⟨adm _ _ _ (by decide +kernel), by decide +kernel⟩

/-- The connection number is the device's choice, below 2^20 whichever it is. -/
theorem witness_WoveCommands_number : ∃ k, (newConn (cacheRoom (wove conn0))).1 = some k ∧ k < 2 ^ 20 :=
  newConn_some _ 1 (by decide) (by decide +kernel)

theorem witness_WoveCommands_window : ∃ k, (newWindow (wove conn0)).1 = some k ∧ k < 2 ^ 22 :=
  newWindow_some _ 0 (by decide) (by decide +kernel)

theorem witness_WoveCommands_admitted :
    Admitted (withCmd (wove conn0) 0 0x0501 (pars [7, 1])) 0 0x0501 (some (pars [7, 1])) (pars [7, 1]) ∧
    Admitted (withCmd (wove conn0) 0 0x0501 (pars [0, 0])) 0 0x0501 (some (pars [0, 0])) (pars [0, 0]) ∧
    Admitted (withCmd (wove conn0) 0 0x0502 (pars [0, 0, 1, 1])) 0 0x0502 (some (pars [0, 0, 1, 1])) (pars [0, 0, 1, 1]) ∧
    Admitted (withCmd (wove conn0) 0 0x0502 (pars [0, 1, 1, 0])) 0 0x0502 (some (pars [0, 1, 1, 0])) (pars [0, 1, 1, 0]) ∧
    Admitted (withCmd (wove conn0) 0 0x0503 (pars [2, 0])) 0 0x0503 (some (pars [2, 0])) (pars [2, 0]) ∧
    Admitted (withCmd (wove conn0) 0 0x0508 (pars [noneSlot, 64, 64, 7, noneSlot])) 0 0x0508 (some (pars [noneSlot, 64, 64, 7, noneSlot])) (pars [noneSlot, 64, 64, 7, noneSlot]) ∧
    Admitted (withCmd (wove conn0) 0 0x0509 (pars [3 * 1024 + 5])) 0 0x0509 (some (pars [3 * 1024 + 5])) (pars [3 * 1024 + 5]) :=
  ⟨adm _ _ _ (by decide +kernel), adm _ _ _ (by decide +kernel), adm _ _ _ (by decide +kernel),
    adm _ _ _ (by decide +kernel), adm _ _ _ (by decide +kernel), adm _ _ _ (by decide +kernel), adm _ _ _ (by decide +kernel)⟩

theorem witness_WoveCommands_objects :
    (tget (wove conn0).wove.conns 7).map Conn.fid = some 1 ∧ mayName (wove conn0) 0 1 = true ∧
    tget (wove conn0).wove.conns 0 = some conn0 ∧ conn0.state ≠ 3 ∧ saExists (wove conn0) 1 = true ∧ (saOf (wove conn0) 1).fid = conn0.fid ∧
    mayName (wove conn0) 0 (saOf (wove conn0) 1).fid = true ∧ (saOf (wove conn0) 1).typ = 5 ∧
    slotOpt (pars [noneSlot, 64, 64, 7, noneSlot]) 0 = none ∧ slotOpt (pars [noneSlot, 64, 64, 7, noneSlot]) 4 = none ∧
    mayTake (wove conn0) 0 5 1 = true ∧
    (windowOf (wove conn0) (3 * 1024 + 5)).map Window.fid = some 0 := by decide +kernel

/-- A write that passed window key 3077's check waits for its page; an IDLE connection in error is closed as a forced close. -/
def holdingWrite : State :=
  modFn (wove conn0) 1 fun f => { f with pageReqs := [⟨1, none, 4, 4, true, none, some ⟨3 * 1024 + 5, 0, none, 64, [1]⟩⟩] }
def failed : Conn := { conn0 with state := 3 }

theorem witness_WoveCommands_held :
    heldFor holdingWrite (3 * 1024 + 5) = true ∧ heldFor (wove conn0) (3 * 1024 + 5) = false ∧
    tget (wove failed).wove.conns 0 = some failed ∧ failed.state = 3 ∧ slot (pars [0, 0]) 1 = 0 := by decide +kernel

def resending : Conn := { conn0 with unacked := [tx0, { tx0 with psn := 4, resend := true, txCnt := 0xFD }] }
def sending : Conn := { conn0 with wrs := [wr0] }
def sendQueue : Queue := { que 0 2 with
  conn := some 0
  entries := [{ idx := 0, op := 0x10, flags := 0, len := 20, addr := 0, raw := [], state := .started }] }
def sender : State := { wove sending with wq := { base.wq with queues := [(4, sendQueue)] } }

def lastTry : Conn := { conn0 with unacked := [{ tx0 with resend := true, txCnt := 0xFE }] }
def resp0 (key : Nat) : WovResp := { op := 4, reqPsn := 9, key := key, off := 0, len := 20 }
def answering (key : Nat) : Conn := { conn0 with resp := [resp0 key] }

theorem witness_WoveEvents_retransmit :
    (clocked (wove resending) = true ∧ flag (wove resending) Reg.WOV_CFG 0 = true ∧ dataOn (wove resending) = true ∧
      tget (adopt (wove resending) 0).wove.conns 0 = some resending ∧ resending.state ≠ 3 ∧ resending.cached = true ∧
      canRequest (wove resending) 0 = true ∧ fnHalted (wove resending) 0 = false ∧ paced (wove resending) resending = true ∧
      resending.unacked.find? (fun x => x.resend && !x.acked && x.nak.isNone && !x.rnrWait) =
        some { tx0 with psn := 4, resend := true, txCnt := 0xFD } ∧
      reReads { tx0 with psn := 4, resend := true, txCnt := 0xFD } = true) ∧
    (tget (adopt (wove lastTry) 0).wove.conns 0 = some lastTry ∧ paced (wove lastTry) lastTry = true ∧
      lastTry.unacked.find? (fun x => x.resend && !x.acked && x.nak.isNone && !x.rnrWait) =
        some { tx0 with resend := true, txCnt := 0xFE }) := by decide +kernel

theorem witness_WoveEvents_send :
    (tget (adopt sender 0).wove.conns 0 = some sending ∧ paced sender sending = true ∧ sending.stalled = false ∧
      stallDue sending = false ∧ psnDiff sending sending.nextPsn sending.cumTx < 512 ∧ sending.resp = [] ∧
      sending.unacked.find? (fun x => x.resend && !x.acked && x.nak.isNone && !x.rnrWait) = none ∧
      sending.wrs.find? (fun w => !w.whole) = some wr0 ∧ qidOf sender 0 sending.sq ≠ none ∧ 0 < wrNeed sending wr0) ∧
    (tget (adopt (wove (answering (3 * 1024 + 5))) 0).wove.conns 0 = some (answering (3 * 1024 + 5)) ∧
      windowOf (wove (answering (3 * 1024 + 5))) (3 * 1024 + 5) ≠ none ∧
      windowOf (wove (answering 77)) 77 = none ∧ paced (wove (answering 77)) (answering 77) = true ∧
      min (answering 77).maxPayload ((resp0 77).len - (resp0 77).sent) = 20) := by decide +kernel

def headerOf (psn key : Nat) : List Byte :=
  [0x10, 1, 0xC0, 0] ++ toBe 4 0 ++ toBe 4 psn ++ toBe 4 0 ++ toBe 4 key ++ toBe 8 64 ++ toBe 4 0
/-- A WRITE of three bytes to connection 0, its ICRC right. -/
def packet (psn key : Nat) : WovePkt :=
  { hdr := headerOf psn key, payload := [1, 2, 3], tag := icrc (headerOf psn key) [1, 2, 3], ce := true }
def received : State := setF (wove conn0) Reg.WOV_CFG 1 1 1

theorem witness_WoveEvents_receive :
    (clocked received = true ∧ flag received Reg.WOV_CFG 0 = true ∧ dataOn received = true ∧
      (packet 8 3077).hdr.length = 32 ∧ whConn (packet 8 3077).hdr = 0 ∧ plainPacket received (packet 8 3077) = true ∧
      tget received.wove.conns 0 = some conn0 ∧ flag received Reg.WOV_CFG 1 = true ∧ conn0.state ≠ 3 ∧ conn0.cached = true ∧
      fnGone received conn0.fid = none ∧ conn0.proto = 1) ∧
    (openPacket received conn0 (packet 8 3077) = some ([1, 2, 3], conn0) ∧
      openPacket received conn0 { packet 8 3077 with tag := [1] } = none ∧
      badHeader conn0 (packet 8 3077).hdr 3 = false ∧ isCtrl (packet 8 3077).hdr = false ∧ whOp (packet 8 3077).hdr = 0x01) ∧
    (psnDiff conn0 (whPsn (packet 8 3077).hdr) conn0.cum = 0 ∧ 512 ≤ psnDiff conn0 (whPsn (packet 520 3077).hdr) conn0.cum ∧
      psnDiff conn0 (whPsn (packet 7 3077).hdr) conn0.cum < 0) ∧
    (whPsn (packet 8 3077).hdr = conn0.cum ∧ conn0.recvd = [] ∧ conn0.cum < 2 ^ psnWidth conn0 ∧
      (fnOf received conn0.fid).bme = true ∧
      windowRefusal received 0 conn0 (whKey (packet 8 3077).hdr) (whOff (packet 8 3077).hdr) 3 1 = none ∧
      (packet 8 3077).translated = true ∧
      (windowRefusal received 0 conn0 (whKey (packet 8 3078).hdr) (whOff (packet 8 3078).hdr) 3 1).isSome = true) := by
  decide +kernel

/-- Lanes 0 to 7 in their roles, lane 8 spare. -/
def withLanes (s : State) : State :=
  (List.range 8).foldl (fun s n => setF (setF s (laneReg n) 2 0 3) (laneReg n) 11 8 n)
    (setF (setF s (laneReg 8) 2 0 2) (laneReg 8) 11 8 15)
def stray : WovePkt := { hdr := [0x10, 1, 0xC0, 0] ++ toBe 4 9 ++ List.replicate 24 0, payload := [], tag := [], ce := false }

theorem witness_WoveEvents_stray :
    clocked (withLanes received) = true ∧ stray.hdr.length = 32 ∧ whConn stray.hdr = 9 ∧
    tget (withLanes received).wove.conns 9 = none ∧
    (rideLane (withLanes received) false 0 (packetBytes stray).length).isSome = true := by decide +kernel

def missed : Conn := { conn0 with cached := false }
def draining : Conn := { conn0 with state := 2 }
def owing : Conn := { conn0 with n := 5, m := 3, sinceAck := 2, ctrlSeq := 0xFFFFFFFF }
def expiring (n : Nat) : Conn := { conn0 with unacked := [tx0], expiries := n }

theorem witness_WoveEvents_timers :
    (tget (wove missed).wove.conns 0 = some missed ∧ missed.cached = false ∧ conn0.cached = true ∧
      ((wove missed).wove.waiting.filter fun x => whConn x.2.hdr == 0) = [] ∧
      ((wove missed).wove.conns.filter fun x => x.2.cached).length < 32768) ∧
    (tget (wove draining).wove.conns 0 = some draining ∧ openWrs (wove draining) draining = []) ∧
    (tget (wove owing).wove.conns 0 = some owing ∧ 0 < owing.sinceAck ∧ owing.state ≠ 3 ∧ owing.stalled = false ∧
      stallDue owing = false) ∧
    ((expiring 0).unacked.any (fun x => !x.acked && x.nak.isNone) = true ∧ (expiring 0).state ≠ 3 ∧ failed.state = 3 ∧
      conn0.unacked.any (fun x => !x.acked && x.nak.isNone) = false ∧
      (expiring 0).expiries + 1 < fld (wove (expiring 0)) Reg.WOV_TIMERS 7 0 ∧
      fld (wove (expiring 255)) Reg.WOV_TIMERS 7 0 ≤ (expiring 255).expiries + 1) := by decide +kernel

/-- An interval without a packet, one without a mark, one with marks, and no rate control. -/
theorem witness_WoveEvents_rates :
    (∀ c ∈ [conn0, { conn0 with n := 5 }, { conn0 with n := 5, m := 3 }], tget (wove c).wove.conns 0 = some c ∧
      rcActive (wove c) c = true) ∧ rcActive (wove { conn0 with rcEn := false }) { conn0 with rcEn := false } = false := by
  decide +kernel

/-! ## Cipher lanes and transform engines -/

def recordP (typ : Nat) : List Byte :=
  toLe 8 (typ * 2 ^ 59 + 1 * 2 ^ 56) ++ (List.range 32).map (fun i => BitVec.ofNat 8 i) ++ List.replicate 12 3 ++ toLe 8 5 ++
    toLe 8 100 ++ toLe 8 1000 ++ toLe 8 9 ++ toLe 4 8 ++ toLe 4 0 ++ toLe 4 0 ++ List.replicate 32 0
def saEsp : Sa := { valid := true, typ := 1, alg := 1, fid := 0, writeCnt := 2 ^ 44 - 2, hard := 1000, soft := 500 }

/-- Lanes 0 to 7 in their roles, lane 8 spare; SA 1 in the store; PF 0 with two cipher pages. -/
def lanes : State :=
  let s := modFn (withLanes ports) 0 fun f => { f with quota := [(6, 10)], cphPages := [3, 4] }
  { s with cph := { s.cph with sas := [(1, saEsp)] } }
def writeP : List Byte := pars [2 ^ 22 - 1, 0, 0] ++ recordP 1
def rewriteP : List Byte := pars [1, 0, 1] ++ recordP 1

theorem witness_CipherCommands_sas :
    Admitted (withCmd lanes 0 0x0600 writeP) 0 0x0600 (some writeP) writeP ∧
    Admitted (withCmd lanes 0 0x0600 rewriteP) 0 0x0600 (some rewriteP) rewriteP ∧
    Admitted (withCmd lanes 0 0x0601 (pars [1])) 0 0x0601 (some (pars [1])) (pars [1]) ∧
    Admitted (withCmd lanes 0 0x0602 (pars [1])) 0 0x0602 (some (pars [1])) (pars [1]) ∧
    (writeP.length = 152 ∧ saExists lanes (2 ^ 22 - 1) = false ∧ lanes.grade.cur ≠ .sealed ∧
      saGood (saOfRecord (writeP.drop 24)) = true ∧ (saOfRecord (writeP.drop 24)).fid = 0 ∧ mayTake lanes 0 6 1 = true ∧
      saExists lanes 1 = true ∧ (saOf lanes 1).fid = 0 ∧ (saOf lanes 1).writeCnt < 2 ^ 44 - 1) :=
  ⟨adm _ _ _ (by decide +kernel), adm _ _ _ (by decide +kernel), adm _ _ _ (by decide +kernel), adm _ _ _ (by decide +kernel),
    by decide +kernel⟩

def joinedLanes : State := setLanePair lanes 3 2

theorem witness_CipherCommands_lanes :
    Admitted (withCmd lanes 0 0x0608 (pars [6])) 0 0x0608 (some (pars [6])) (pars [6]) ∧
    Admitted (withCmd joinedLanes 0 0x0609 (pars [6])) 0 0x0609 (some (pars [6])) (pars [6]) ∧
    Admitted (withCmd (setLane lanes 8 4 15) 0 0x060A (pars [8])) 0 0x060A (some (pars [8])) (pars [8]) ∧
    Admitted (withCmd lanes 0 0x060B (pars [7, 8])) 0 0x060B (some (pars [7, 8])) (pars [7, 8]) ∧
    (lanePairState lanes 3 = 0 ∧ lanePairBroken lanes 3 = false ∧ lanePairState joinedLanes 3 = 2 ∧
      shapeOf joinedLanes 1 ≠ 1 ∧ lanePairBroken joinedLanes 3 = false ∧ laneState (setLane lanes 8 4 15) 8 = 4 ∧
      laneState lanes 8 ≠ 4 ∧ laneState lanes 8 = 2 ∧ laneCarrier lanes 7 ≠ none) :=
  ⟨adm _ _ _ (by decide +kernel), adm _ _ _ (by decide +kernel), adm _ _ _ (by decide +kernel), adm _ _ _ (by decide +kernel),
    by decide +kernel⟩

def shape1 : State := setF lanes (Reg.MAC_LG_CFG 0) 3 0 1

theorem witness_CipherCommands_writes :
    (clocked lanes = true ∧ reachesBar0 lanes (.fn 0) = true ∧ bits 0x7FFFFFFF 31 31 = 0 ∧ shapeOf lanes (groupOf 7) ≠ 1) ∧
    (clocked shape1 = true ∧ reachesBar0 shape1 (.fn 0) = true ∧ bits 0x80000005 31 31 = 1 ∧ shapeOf shape1 (groupOf 0) = 1 ∧
      servesPort shape1 0 = true ∧ lanePairJoined shape1 (groupOf 0) = false) ∧
    (pageReach lanes 0 = true ∧ cphPage lanes 0 1 = some 4) := by decide +kernel

def laneFrame : LaneFrame := {
  seq := 5, onTx := true, mac := 0, sa := 1, bytes := List.replicate 64 1, work := .macsecTx 0, lane := some 8
  tx := some (txf 64) }
def jobBlock (code : Nat) : List Byte :=
  toLe 1 code ++ [0, 0, 0] ++ toLe 4 32 ++ toLe 8 0x1000 ++ toLe 8 0x2000 ++ toLe 8 0 ++ toLe 4 4 ++ toLe 4 1 ++
    List.replicate 32 0
def ent0 : QEntry := { idx := 4, op := 0x30, flags := 0, len := 64, addr := 0, raw := List.replicate 32 0, state := .started }
def jobQueue : Queue := { que 2 4 with entries := [ent0], head := 4, next := 5, tail := 5 }
def job0 (code : Nat) (lane : Option Nat) : Job := { qid := 6, idx := 4, fid := 0, block := jobBlock code, lane := lane }
def jobs : State := { lanes with
  cph := { lanes.cph with
    jobs := [(0, job0 1 none), (1, job0 1 (some 8)), (2, job0 0x10 (some 3))]
    cached := [2]
    changed := [1] }
  wq := { lanes.wq with queues := [(6, jobQueue)] } }
def framing : State := { setLane lanes 8 3 2 with cph := { lanes.cph with frames := [laneFrame] } }

theorem witness_CipherEvents_work :
    (clocked jobs = true ∧ (saOf jobs 1).valid = true ∧ 1 ∉ jobs.cph.cached ∧ jobs.cph.cached.length < 65536 ∧
      1 ∈ jobs.cph.changed ∧ (saOf jobs 1).writeCnt < 2 ^ 44 - 1) ∧
    (clocked framing = true ∧ laneState framing 8 = 3 ∧ framing.cph.frames = [laneFrame] ∧ laneFrame.tx ≠ none) ∧
    (tget jobs.cph.jobs 0 = some (job0 1 none) ∧ isTransform (jobBlock 1) = false ∧ jobKeyOk jobs (job0 1 none) = false ∧
      (leastLoaded (jobLoad jobs false) (jobLanes jobs)).isSome = true) ∧
    (tget jobs.cph.jobs 1 = some (job0 1 (some 8)) ∧ jobOpen jobs (job0 1 (some 8)) = true) ∧
    (tget jobs.cph.jobs 2 = some (job0 0x10 (some 3)) ∧ isTransform (jobBlock 0x10) = true ∧
      jobOpen jobs (job0 0x10 (some 3)) = true ∧ jobCode (jobBlock 0x10) = 0x10 ∧ 4 ≤ jobDstLen (jobBlock 0x10)) := by decide +kernel

/-- SA 1's record in HBM_0 opens under the wrapping key. -/
theorem witness_CipherEvents_record : recordOpens (putRecord jobs 1) 1 = true := recordOpens_putRecord jobs 1

def laneTesting (unfilled : List Nat) : State := { setLane lanes 8 1 15 with cph := { lanes.cph with unfilled := unfilled } }
def laneJoining : State := { lanes with cph := { lanes.cph with joins := [(0, 1), (3, 2)] } }

theorem witness_CipherEvents_lanes :
    (clocked lanes = true ∧ laneState lanes 7 = 3 ∧ laneRoleOf lanes 7 < 8 ∧ laneState lanes 8 = 2) ∧
    (laneState (laneTesting []) 8 = 1 ∧ (laneTesting []).cph.unfilled = [] ∧ (laneTesting [7, 3]).cph.unfilled = [7, 3] ∧
      laneState (laneTesting [7, 3]) 8 = 1) ∧
    ((∀ f ∈ laneJoining.cph.frames, f.lane = none) ∧ tget laneJoining.cph.moves 6 = none ∧ tget laneJoining.cph.moves 7 = none ∧
      tget laneJoining.cph.joins 0 = some 1 ∧ tget laneJoining.cph.joins 3 = some 2) := by decide +kernel

/-! ## Host link, functions and isolation -/

/-- PF 0 with three VFs, of which function 9 has tags, quarantine, invalidations, page requests and a dirty log. -/
def fns : State :=
  let s := modFn base 0 fun f => { f with
    quota := [(0, 4), (8, 3), (9, 3), (10, 3), (1, 5)], vfEnable := true, numVfs := 3, ats := true, pri := true
    trigSlots := [7, 9], cphPages := [2], banks := [4], mbxSel := 2 }
  let s := modFn s 9 fun f => { f with
    memEn := true, bme := true, mbxVec := 3, quar := [5]
    tags := [(5, ⟨0, some 4, 4, false⟩), (6, ⟨0, none, 4, false⟩), (7, ⟨0, some 4, 4, true⟩)]
    invals := [[5], [6]], ats := true, quota := [(1, 2), (8, 1)]
    pageReqs := [⟨1, none, 4, 4, true, none, none⟩, ⟨2, none, 4, 4, false, none, none⟩]
    dirty := some { base := 0, length := 8192, bitmap := 4096, bits := [1, 2, 65], changed := [0, 1] } }
  let s := modFn s 1 fun f => { f with flr := true }
  modFn s 10 fun f => { f with bme := false, invals := [[3], [6]] }

def withLink (l : Link) : State := { fns with host := { fns.host with links := [(0, l), (1, l)], split := true } }
def upLink : Link := { up := true, ready := true, width := 8, active := 8, speed := 6, pm := 0, flit := true }

/-- The host enables ASPM of both links. -/
def aspm (a : AspmEnable) (s : State) : State :=
  modFn (modFn s 0 fun f => { f with aspm := a }) 4 fun f => { f with aspm := a }
/-- A transmit queue waits for the firing of trigger slot 7, and the frame behind the wait is not fetched. -/
def wakeful : State :=
  let s := withLink { upLink with pm := 4 }
  { s with
    time := { s.time with trigs := [(7, { armed := true })] }
    wq := { s.wq with queues := [(4, {
      fid := 0, loc := 2, type := 0, base := 0, log2 := 6, pasid := none, cq := 0, tsq := none, mac := 0, tc := 0
      rxMeta := 0, dropReport := false, state := 2, head := 4, next := 6, tail := 6, entries := [
        { idx := 4, op := 0x33, flags := 0, len := 0, addr := 0, raw := List.replicate 32 0, state := .held },
        { idx := 5, op := 0x01, flags := 0, len := 64, addr := 0, raw := List.replicate 32 0, state := .held }] })] } }

theorem witness_HostLinkEvents_states :
    (clocked (withLink {}) = true ∧ linkOk (withLink {}) 1 = true ∧ (withLink {}).host.perstLow = false ∧
      (linkRec (withLink {}) 1).up = false ∧ widthOk (withLink {}) 8 = true) ∧
    ((linkRec (withLink { lost := true, pm := 5 }) 1).lost = true ∧ clocked (withLink { lost := true, pm := 5 }) = true) ∧
    (clocked (withLink upLink) = true ∧ (linkRec (withLink upLink) 1).up = true ∧ (linkRec (withLink upLink) 1).pm ≤ 1 ∧
      (withLink upLink).grade.cur ≠ .deterministic ∧ (linkRec (withLink upLink) 1).flit = true ∧
      flag (setF (withLink upLink) (Reg.HIF_LINK_PM 1) 0 0 1) (Reg.HIF_LINK_PM 1) 0 = true ∧
      (narrower (withLink upLink) 1).isSome = true) ∧
    ((linkRec (withLink { upLink with pm := 1, active := 4 }) 1).pm = 1 ∧ (linkRec (withLink { upLink with pm := 4 }) 1).pm = 4) ∧
    (linkRec (withLink { upLink with ready := false }) 1).ready = false ∧
    { fns with host := { fns.host with perstLow := true } }.host.perstLow = true := by decide +kernel

theorem witness_HostLinkEvents_power :
    ((fnOf (aspm ⟨true, false, false⟩ (withLink upLink)) (fnZero 1)).aspm.l1 = true ∧
      (linkRec (aspm ⟨true, false, false⟩ (withLink upLink)) 1).up = true ∧
      fld (aspm ⟨true, false, false⟩ (withLink upLink)) (Reg.HIF_LINK_PM 1) 17 8 = 16) ∧
    ((fnOf (aspm ⟨false, true, true⟩ (setG (withLink upLink) .standby)) (fnZero 1)).aspm.l12 = true ∧
      (aspm ⟨false, true, true⟩ (setG (withLink upLink) .standby)).grade.cur = .standby) ∧
    (clocked wakeful = true ∧ (linkRec wakeful 0).up = true ∧ (linkRec wakeful 0).pm = 4 ∧ wakeWanted wakeful 0 = true) := by
  decide +kernel

theorem witness_FunctionEvents_config :
    clocked fns = true ∧ cfgReach fns 9 = true ∧ (fnOf fns 9).bme = true ∧ (fnOf fns 9).d3hot = false ∧
    cfgReach fns 10 = true ∧ (fnOf fns 10).bme = false ∧ (fnOf fns 10).d3hot = false ∧ (fnOf fns 1).flr = true ∧
    fnPresent fns 10 = true := by decide +kernel

theorem witness_FunctionEvents_transactions :
    (5 ∈ (fnOf fns 9).quar ∧ (linkRec fns 0).lost = false ∧ fns.host.perstLow = false) ∧
    (tget (fnOf fns 9).tags 6 = some ⟨0, none, 4, false⟩ ∧ 6 ∉ (fnOf fns 9).quar ∧
      tget (fnOf fns 9).tags 7 = some ⟨0, some 4, 4, true⟩ ∧ 7 ∉ (fnOf fns 9).quar) ∧
    (fnPresent fns 9 = true ∧ (fnOf fns 9).ats = true ∧ (fnOf fns 10).invals = [[3], [6]] ∧
      ∀ x ∈ [3], tget (fnOf fns 10).tags x = none) ∧
    (pageReqOf fns 9 1).map PageReq.pkt = some none := by decide +kernel

theorem witness_FunctionCommands_mailbox :
    (clocked fns = true ∧ pageReach fns 9 = true ∧ (fnOf fns 9).txBusy = false ∧ pageReach fns 0 = true) ∧
    (mbxVf fns 0 = some 9 ∧ (fnOf fns 9).rxFull = false) := by decide +kernel

def onFn (code : Nat) (p : List Byte) : State := withCmd fns 0 code p 9
def onPf (code : Nat) (p : List Byte) : State := withCmd fns 0 code p 0

theorem witness_FunctionCommands_quota :
    Admitted (onFn 0x0100 (pars [1, 3])) 0 0x0100 (some (pars [1, 3])) (pars [1, 3]) ∧
    Admitted (onFn 0x0100 (pars [0, 2])) 0 0x0100 (some (pars [0, 2])) (pars [0, 2]) ∧
    Admitted (onFn 0x0101 []) 0 0x0101 none [] ∧
    Admitted (onPf 0x0102 (pars [8, 4095])) 0 0x0102 (some (pars [8, 4095])) (pars [8, 4095]) ∧
    Admitted (onPf 0x0102 (pars [9, 255])) 0 0x0102 (some (pars [9, 255])) (pars [9, 255]) ∧
    Admitted (onPf 0x0103 (pars [10])) 0 0x0103 (some (pars [10])) (pars [10]) ∧
    (targetOf (onFn 0x0100 (pars [1, 3])) 0 = 9 ∧ quotaCheck (onFn 0x0100 (pars [1, 3])) 9 1 3 = none ∧
      (quotaCheck (onFn 0x0100 (pars [0, 2])) 9 0 2).isSome = true ∧ indexTaken fns 8 4095 = false ∧
      mayTake fns 0 8 1 = true ∧ indexTaken fns 9 255 = false ∧ mayTake fns 0 9 1 = true ∧ indexList (fnOf fns 0) 10 ≠ []) :=
  ⟨adm _ _ _ (by decide +kernel), adm _ _ _ (by decide +kernel), admitted_of _ _ _ _ _ (by decide +kernel),
    adm _ _ _ (by decide +kernel), adm _ _ _ (by decide +kernel), adm _ _ _ (by decide +kernel), by decide +kernel⟩

theorem witness_FunctionCommands_dirty :
    Admitted (onPf 0x0104 (pars [0x1000, 2 ^ 40, 8])) 0 0x0104 (some (pars [0x1000, 2 ^ 40, 8])) (pars [0x1000, 2 ^ 40, 8]) ∧
    Admitted (onFn 0x0105 (pars [8])) 0 0x0105 (some (pars [8])) (pars [8]) ∧
    Admitted (onFn 0x0106 []) 0 0x0106 none [] ∧
    ((fnOf fns 0).dirty = none ∧ dirtyCount fns < 64 ∧ (fnOf fns 9).dirty ≠ none ∧
      ((fnOf fns 9).dirty.map fun d => decide (1 ∈ d.changed)) = some true) :=
  ⟨adm _ _ _ (by decide +kernel), adm _ _ _ (by decide +kernel), admitted_of _ _ _ _ _ (by decide +kernel), by decide +kernel⟩

/-! ## Work queues and the command channel -/

def cqe : Cq := {
  fid := 0, loc := 3, kind := 0, base := 0x8000, log2 := 6, shadow := 64, pasid := none, vector := 1, modCount := 4
  modTime := 7 }
def heldMsg : QEntry := { idx := 4, op := 0x40, flags := 0, len := 64, addr := 0x4000, raw := List.replicate 32 0, state := .held }
def work : Queue := { que 2 4 with tail := 9, head := 4, next := 5, entries := [{ heldMsg with op := 0x20, state := .started }] }
def messages : Queue := { work with type := 5, loc := 3, entries := [heldMsg] }
def queues : State :=
  let s := modFn base 0 fun f => { f with quota := [(1, 20), (2, 20)] }
  { s with wq := { s.wq with
    queues := [(3, work), (4, messages),
      (5, { work with loc := 4, state := 4, entries := [], next := 9 }),
      (6, { work with loc := 5, state := 4, destroy := true, entries := [], next := 9 }),
      (7, { work with loc := 6, state := 6, entries := [] }), (8, { work with loc := 7, state := 5, entries := [] }),
      (9, { work with loc := 8, type := 0, cq := 3 })]
    cqs := [(0, { cqe with pi := 5, ci := 3, timer := true }), (1, { cqe with loc := 1, kind := 1 }),
      (3, { cqe with loc := 4, held := [List.replicate 16 1], shadowPi := 2 }), (7, { cqe with loc := 5 })] } }

theorem witness_QueueEvents_doorbells :
    (clocked queues = true ∧ pageReach queues 0 = true ∧ qidOf queues 0 2 = some 3 ∧ tget queues.wq.queues 3 = some work ∧
      work.state ≠ 6 ∧ fnHalted queues 0 = false ∧ (63 : Word).toNat < qSize work ∧
      (work.tail + qSize work - work.head) % qSize work ≤ ((63 : Word).toNat + qSize work - work.head) % qSize work ∧
      65536 ≤ (0x10000 : Word).toNat) ∧
    (cqidOf queues 0 3 = some 0 ∧ tget queues.wq.cqs 0 = some { cqe with pi := 5, ci := 3, timer := true } ∧
      (5 : Word).toNat < cqSize cqe ∧ (5 + cqSize cqe - 3) % cqSize cqe ≤ (5 + cqSize cqe - 3) % cqSize cqe ∧
      (0x10005 : Word).toNat = 65536 + 5) := by decide +kernel

def rawDesc (op len addr : Nat) : List Byte :=
  [BitVec.ofNat 8 op, 0, 0, 0] ++ toLe 4 len ++ toLe 8 addr ++ List.replicate 16 0

theorem witness_QueueEvents_entries :
    (fetches queues 4 messages = true ∧ checkDesc (rawDesc 0x40 64 128) messages.type (maxFrame queues messages.mac) = none ∧
      leAt (rawDesc 0x40 64 128) 0 1 ≠ 0x20 ∧ leAt (rawDesc 0x40 64 128) 2 1 % 32 = 0 ∧
      checkDesc (rawDesc 0x99 1 0) messages.type (maxFrame queues messages.mac) ≠ none ∧ (fnOf queues 0).pri = false) ∧
    ((tget queues.wq.cqs 3).map (fun q => (q.dead, cqFull q)) = some (false, false) ∧
      (tget queues.wq.cqs 3).map (fun q => (q.held, q.shadowPi, q.pi)) = some ([List.replicate 16 1], 2, 0) ∧ canRequest queues 0 = true ∧
      (tget queues.wq.cqs 0).map Cq.timer = some true) ∧
    ((tget queues.wq.queues 5).map (fun q => (q.state, q.entries.length, q.next, q.tail)) = some (4, 0, 9, 9) ∧
      (tget queues.wq.queues 6).map (fun q => (q.state, q.entries.length, q.next, q.tail)) = some (4, 0, 9, 9)) ∧
    ((queues.wq.queues.find? fun p => p.2.type == 5 && (p.2.state == 1 || p.2.state == 2)) =
        some (4, messages) ∧
      nextMessage messages = some heldMsg ∧ queues.cores.fwReady = true) := by
  decide +kernel

theorem witness_QueueEvents_refused :
    (work.tail ≠ 64 ∧ qSize work ≤ (64 : Word).toNat ∧ 65536 ≤ (0x10000 : Word).toNat) ∧
    (cqSize cqe ≤ (64 : Word).toNat % 65536 ∧ 131072 ≤ (0x20000 : Word).toNat) ∧
    ((queues.wove.waiting.any fun x => messages.conn == some (whConn x.2.hdr)) = false) ∧
    (0 < qSize { work with loc := 4, state := 4, entries := [], next := 9 }) := by decide +kernel

/-- Vector 1 of PF 0 may be sent. -/
def vectored : State :=
  modFn queues 0 fun f => { f with quota := [(1, 20), (2, 20), (3, 5)], msixEn := true, vecs := [(1, { masked := false })] }
def revoking (s : State) : State := { s with wove := { s.wove with revoking := [(8, 77)] } }
def revokeHeld : State :=
  modFn (revoking queues) 1 fun f => { f with pageReqs := [⟨1, none, 4, 4, true, none, some ⟨77, 0, none, 64, [1]⟩⟩] }

theorem witness_QueueEvents_messages :
    (clocked vectored = true ∧ (tget vectored.wq.cqs 0).map (fun q => (q.timer, q.vector)) = some (true, 1) ∧
      fnPresent vectored 0 = true ∧ 1 < msixSize 0 ∧ 1 < quotaOf vectored 0 3 ∧ msixReady vectored 0 1 = true) ∧
    (canRequest queues 0 = true ∧ fnHalted queues 0 = false ∧ (hdrOf 0 0 0 0).length = heldMsg.len ∧
      hdrOpcode (hdrOf 0 0 0 0) ≠ 0x0509 ∧ hdrOpcode (hdrOf 0x509 0 0 0) = 0x0509 ∧ (hdrOf 0x509 0 0 0).length = heldMsg.len) ∧
    (tget (revoking queues).wove.revoking 8 = some 77 ∧ heldFor (revoking queues) 77 = false ∧
      tget revokeHeld.wove.revoking 8 = some 77 ∧ heldFor revokeHeld 77 = true) := by decide +kernel

def qCmd (code : Nat) (l : List Nat) : State := withCmd queues 0 code (pars l)
def qCreateL : List Nat := [1023, 4, 0x1000, 16, noneSlot, 3, noneSlot, 0, 0, 0, 0]
def cqCreateL : List Nat := [1023, 1, 0x1000, 16, 8, noneSlot, 3, 65535, 1023]

theorem witness_QueueCommands_create :
    Admitted (qCmd 0x0200 qCreateL) 0 0x0200 (some (pars qCreateL)) (pars qCreateL) ∧
    Admitted (qCmd 0x0204 cqCreateL) 0 0x0204 (some (pars cqCreateL)) (pars cqCreateL) ∧
    (macOk queues 4 0 = true ∧ qidOf queues 0 1023 = none ∧ slotOpt (pars qCreateL) 4 = none ∧ cqidOf queues 0 3 = some 0 ∧
      (tget queues.wq.cqs 0).map Cq.kind = some 0 ∧ mayTake queues 0 1 1 = true ∧ queues.wq.queues.length < 65536) ∧
    (cqidOf queues 0 1023 = none ∧ slotOpt (pars cqCreateL) 5 = none ∧ 3 < msixSize 0 ∧ mayTake queues 0 2 1 = true ∧
      queues.wq.cqs.length < 32768) :=
  ⟨adm _ _ _ (by decide +kernel), adm _ _ _ (by decide +kernel), by decide +kernel, by decide +kernel⟩

def haltedFn : State := modFn queues 0 fun f => { f with halted := true }

theorem witness_QueueCommands_objects :
    (Admitted (qCmd 0x0201 [2]) 0 0x0201 (some (pars [2])) (pars [2]) ∧ Admitted (qCmd 0x0202 [7]) 0 0x0202 (some (pars [7])) (pars [7]) ∧
      Admitted (withCmd haltedFn 0 0x0202 (pars [7])) 0 0x0202 (some (pars [7])) (pars [7]) ∧
      Admitted (qCmd 0x0203 [7]) 0 0x0203 (some (pars [7])) (pars [7]) ∧ Admitted (qCmd 0x0203 [6]) 0 0x0203 (some (pars [6])) (pars [6])) ∧
    (Admitted (qCmd 0x0205 [4, 65535, 1023]) 0 0x0205 (some (pars [4, 65535, 1023])) (pars [4, 65535, 1023]) ∧
      Admitted (qCmd 0x0205 [4, 0, 1]) 0 0x0205 (some (pars [4, 0, 1])) (pars [4, 0, 1]) ∧
      Admitted (qCmd 0x0206 [5]) 0 0x0206 (some (pars [5])) (pars [5]) ∧ Admitted (qCmd 0x0206 [4]) 0 0x0206 (some (pars [4])) (pars [4])) ∧
    ((tget queues.wq.queues 3).map Queue.state = some 1 ∧ (tget queues.wq.queues 8).map (fun q => (q.state, q.entries)) = some (5, []) ∧
      fnHalted queues 0 = false ∧ fnHalted haltedFn 0 = true ∧ qidOf queues 0 6 = some 7 ∧ (tget queues.wq.queues 7).map Queue.state = some 6 ∧
      cqidOf queues 0 5 = some 7 ∧ (queues.wq.queues.any fun q => q.2.cq == 7 || q.2.tsq == some 7) = false ∧
      cqidOf queues 0 4 = some 3 ∧ (queues.wq.queues.any fun q => q.2.cq == 3 || q.2.tsq == some 3) = true) :=
  ⟨⟨adm _ _ _ (by decide +kernel), adm _ _ _ (by decide +kernel), adm _ _ _ (by decide +kernel), adm _ _ _ (by decide +kernel),
    adm _ _ _ (by decide +kernel)⟩, ⟨adm _ _ _ (by decide +kernel), adm _ _ _ (by decide +kernel), adm _ _ _ (by decide +kernel),
    adm _ _ _ (by decide +kernel)⟩, by decide +kernel⟩

def chanWith (c : Channel) : State := { base with chans := [(7, c)] }
def channel0 (c : Channel) : State := { base with chans := [(0, c)] }
def headerWords (code : Nat) : Tab Word := (List.range 16).map fun w => (w, BitVec.ofNat 32 (leAt (hdrOf code 0 0 8) (4 * w) 4))
def taken (code : Nat) (ph : CmdPhase) : Running := { hdr := hdrOf code 0 0 8, phase := ph }

theorem witness_ChannelCommands :
    (clocked base = true ∧ pageReach (channel0 { hdr := headerWords 0 }) 0 = true ∧
      (chanOf (channel0 { hdr := headerWords 0 }) 0).cmd = none ∧ (channel0 {}).cores.fwReady = true ∧
      (opRow (hdrOpcode (chanHdr (channel0 { hdr := headerWords 0 }) 0))).isSome = true ∧
      (chanOf (channel0 { cmd := some (taken 1 .accepted) }) 0).cmd ≠ none) ∧
    (clocked (chanWith { aborting := true }) = true ∧ (chanOf (chanWith { aborting := true }) 7).cmd = none ∧
      (chanOf (chanWith { aborting := true, cmd := some (taken 1 .accepted) }) 7).cmd = some (taken 1 .accepted) ∧
      sealedBy (opRow (hdrOpcode (taken 1 .accepted).hdr)) 7 (hdrTarget (taken 1 .accepted).hdr) true = false ∧
      hdrOpcode (taken 1 .accepted).hdr ≠ 3) ∧
    ((chanOf (chanWith { cmd := some (taken 1 (.settled (ok [] [1, 2, 3]))) }) 7).aborting = false ∧
      (taken 1 (.settled (ok [] [1, 2, 3]))).isSealed = false ∧
      { taken 1 (.settled (ok [] [])) with isSealed := true }.isSealed = true ∧ hdrOpcode (taken 3 (.settled (ok []))).hdr = 3) := by
  decide +kernel

theorem witness_ChannelCommands_simple :
    Admitted (withCmd base 7 0x0000 []) 7 0x0000 none [] ∧ Admitted (withCmd base 7 0x0001 []) 7 0x0001 none [] ∧
    Admitted (withCmd base 0 0x0003 []) 0 0x0003 none [] ∧ Admitted (withCmd base 0 0x0004 []) 0 0x0004 none [] :=
  ⟨admitted_of _ _ _ _ _ (by decide +kernel), admitted_of _ _ _ _ _ (by decide +kernel),
    admitted_of _ _ _ _ _ (by decide +kernel), admitted_of _ _ _ _ _ (by decide +kernel)⟩

/-! ## Tables of the packet pipes -/

/-- All pipes on graph 1; graph 2 with a node; one exact-match entry, one wide TCAM entry, one route. -/
def tables : State :=
  let s := (List.range 10).foldl (fun s p => setF s (Reg.PIPE_GRAPH_SEL p) 1 0 1) base
  { s with pkt := { base.pkt with
    graphs := [(2, { nodes := [(0, 0x80008000)] })]
    em := [{ wide := false, key := 5, result := 0, fid := 0 }]
    tcam := [(4, { wide := true, key := 1, mask := 1, result := 0 })]
    routes := [routeOf (pars [3, 8, 0x0A0000000000000]) false 0] } }
def tab (code : Nat) (p : List Byte) : State := withCmd tables 0 code p
def nodesP (slot' : Nat) : List Byte := pars [slot', 255, 1] ++ List.replicate 80 1
def stageP : List Byte := pars [3, 3] ++ toLe 4 (2 ^ 31 + 5 * 2 ^ 28 + 8 * 2 ^ 16) ++ [0, 0] ++ toLe 2 3 ++ List.replicate 32 1
def progP : List Byte := pars (16383 :: List.replicate 16 0)

theorem witness_TableCommands_graphs :
    Admitted (tab 0x0300 (nodesP 3)) 0 0x0300 (some (nodesP 3)) (nodesP 3) ∧
    Admitted (tab 0x0300 (nodesP 1)) 0 0x0300 (some (nodesP 1)) (nodesP 1) ∧
    Admitted (tab 0x0301 stageP) 0 0x0301 (some stageP) stageP ∧
    Admitted (tab 0x0302 (pars [3])) 0 0x0302 (some (pars [3])) (pars [3]) ∧
    Admitted (tab 0x0302 (pars [2])) 0 0x0302 (some (pars [2])) (pars [2]) ∧
    Admitted (tab 0x0303 progP) 0 0x0303 (some progP) progP ∧
    Admitted (tab 0x0304 (pars [1023, 0])) 0 0x0304 (some (pars [1023, 0])) (pars [1023, 0]) ∧
    ((nodesP 3).length = 24 + 80 * 1 ∧ slotInUse tables 3 = false ∧ slotInUse tables 1 = true ∧ stageP.length = 56 ∧
      nbits (leAt stageP 16 4) 30 28 = 5 ∧ nbits (leAt stageP 16 4) 19 16 = 8 ∧ progNameOk (leAt stageP 22 2) = true ∧
      graphOk (graphOf tables 2) = true ∧ slotInUse tables 2 = false ∧ graphOk (graphOf tables 3) = false ∧
      ((List.range 16).all fun i => primOk ((primsOf (progP.drop 8)).getD i 0)) = true) :=
  ⟨adm _ _ _ (by decide +kernel), adm _ _ _ (by decide +kernel), adm _ _ _ (by decide +kernel), adm _ _ _ (by decide +kernel),
    adm _ _ _ (by decide +kernel), adm _ _ _ (by decide +kernel), adm _ _ _ (by decide +kernel), by decide +kernel⟩

def emP : List Byte := pars [1] ++ toBe 48 7 ++ toBe 16 8
def tcamP : List Byte := pars [131070, 1] ++ List.replicate 96 0
def routeP : List Byte := pars [255, 128, 0, 0] ++ List.replicate 16 0

theorem witness_TableCommands_entries :
    Admitted (tab 0x0305 emP) 0 0x0305 (some emP) emP ∧
    Admitted (tab 0x0306 (pars [0] ++ toBe 16 5)) 0 0x0306 (some (pars [0] ++ toBe 16 5)) (pars [0] ++ toBe 16 5) ∧
    Admitted (tab 0x0306 (pars [0] ++ toBe 16 6)) 0 0x0306 (some (pars [0] ++ toBe 16 6)) (pars [0] ++ toBe 16 6) ∧
    Admitted (tab 0x0307 tcamP) 0 0x0307 (some tcamP) tcamP ∧
    Admitted (tab 0x0308 (pars [131071])) 0 0x0308 (some (pars [131071])) (pars [131071]) ∧
    Admitted (tab 0x0309 routeP) 0 0x0309 (some routeP) routeP ∧
    Admitted (tab 0x030A (pars [3, 8, 0x0A0000000000000])) 0 0x030A (some (pars [3, 8, 0x0A0000000000000])) (pars [3, 8, 0x0A0000000000000]) ∧
    (emP.length = 24 + emKeyLen emP ∧ progNameOk (beAt emP (8 + emKeyLen emP) 16 / 2 ^ 112) = true ∧
      emUsed tables * 10 ≤ emCapacity * 9 ∧ (pars [0] ++ toBe 16 5).length = 8 + emKeyLen (pars [0] ++ toBe 16 5) ∧
      (tables.pkt.em.find? fun x => x.wide == (slot (pars [0] ++ toBe 16 5) 0 == 1) && x.key == beAt (pars [0] ++ toBe 16 5) 8 16).isSome = true ∧
      tables.pkt.em.find? (fun x => x.wide == (slot (pars [0] ++ toBe 16 6) 0 == 1) && x.key == beAt (pars [0] ++ toBe 16 6) 8 16) = none ∧
      tcamP.length = 32 + 2 * tcamKeyLen tcamP ∧ progNameOk (beAt tcamP (16 + 2 * tcamKeyLen tcamP) 16 / 2 ^ 112) = true) ∧
    (routeP.length = 48 ∧ progNameOk ((routeOf routeP true (beAt routeP 32 16)).result / 2 ^ 112) = true ∧
      lpmUsed tables + 2 ≤ 4194304 ∧
      tables.pkt.routes.any (sameRoute (routeOf (pars [3, 8, 0x0A0000000000000]) false 0)) = true) :=
  ⟨adm _ _ _ (by decide +kernel), adm _ _ _ (by decide +kernel), adm _ _ _ (by decide +kernel), adm _ _ _ (by decide +kernel),
    adm _ _ _ (by decide +kernel), adm _ _ _ (by decide +kernel), adm _ _ _ (by decide +kernel), by decide +kernel, by decide +kernel⟩

def rssP (l4 : Nat) : List Byte := pars [1, 2, 3, 4, 5, l4, 1]
def indirP : List Byte := pars [64, 62] ++ [1, 2, 3, 4]

theorem witness_TableCommands_others :
    Admitted (tab 0x030B (pars [1048575, 1, 2, 3, 4])) 0 0x030B (some (pars [1048575, 1, 2, 3, 4])) (pars [1048575, 1, 2, 3, 4]) ∧
    Admitted (tab 0x030C (pars [7, 77, 64])) 0 0x030C (some (pars [7, 77, 64])) (pars [7, 77, 64]) ∧
    Admitted (tab 0x030D (rssP 1)) 0 0x030D (some (rssP 1)) (rssP 1) ∧
    Admitted (tab 0x030D (rssP 2)) 0 0x030D (some (rssP 2)) (rssP 2) ∧
    Admitted (tab 0x030E indirP) 0 0x030E (some indirP) indirP ∧
    Admitted (tab 0x030F (pars [2 ^ 22 - 4096, 4096])) 0 0x030F (some (pars [2 ^ 22 - 4096, 4096])) (pars [2 ^ 22 - 4096, 4096]) ∧
    (nbits 77 57 54 < 5 ∧ (steerOf (nbits 77 57 54) (77 % 2 ^ 32)).isSome = true ∧ slot (rssP 2) 5 = 2 ∧
      indirSizes.contains 64 = true ∧ 62 + (indirP.length - 16) / 2 ≤ 64) :=
  ⟨adm _ _ _ (by decide +kernel), adm _ _ _ (by decide +kernel), adm _ _ _ (by decide +kernel), adm _ _ _ (by decide +kernel),
    adm _ _ _ (by decide +kernel), adm _ _ _ (by decide +kernel), by decide +kernel⟩

/-- A program that steers to port 7, which the FZ3200-BX has not. -/
def toPort7 : List Byte := pars (3 :: (0x05 * 2 ^ 59 + 4 * 2 ^ 54 + 7) :: List.replicate 15 0)
def bxTab : State := { tab 0x0303 toPort7 with variant := .bx }

theorem witness_TableCommands_variant :
    Admitted bxTab 0 0x0303 (some toPort7) toPort7 ∧ toPort7.length = 136 ∧
    ((primsOf (toPort7.drop 8)).all (primPresent .bx) = false ∧ (primsOf (toPort7.drop 8)).all (primPresent .ax) = true) ∧
    steerPresent .ax (.port 7) = true :=
  ⟨adm _ _ _ (by decide +kernel), by decide +kernel⟩

/-! ## Data cores and threads -/

def thread0 : Thread := {
  st := 1
  ctx := [(0, 0x1000), (1, 3), (6, 3), (7, 0x50000000), (8, 12), (9, 62), (10, 0xFF)] }

/-- Core 9 of quire 1 with its threads and endpoints. -/
def coreOf9 (threads : List (Nat × Thread)) (eps : List (Nat × List Item)) : State :=
  { setF base (Reg.QUIRE_STATUS 1) 2 0 2 with
    cores := { base.cores with cores := [(9, { threads := threads, eps := eps })] } }
def heldItem : HeldItem := { ep := 3, words := [1, 2, 3], read := 3 }
def receiving : State := coreOf9 [(1, thread0)] [(3, [{ words := [7, 8] }])]
def waiting : State := coreOf9 [(1, { thread0 with held := [heldItem] })] []
def machine : State := coreOf9
  [(4, { st := 3, held := [heldItem], staged := [(5, [6])] }),
    (7, { thread0 with ctx := [(0, 0x1000), (1, 3), (6, 4), (7, 3), (8, 12), (0x17C0, 0x20004)] })] []

theorem witness_ThreadInstructions :
    (clocked receiving = true ∧ hartRuns receiving 73 = true ∧ mayRead 73 ((xreg receiving 73 5).toNat % 64) = true ∧
      (recvWord receiving 73 ((xreg receiving 73 5).toNat % 64)).isSome = true ∧ (hartOf receiving 73).staged = [] ∧
      (openWith (hartOf receiving 73) ((xreg receiving 73 6).toNat % 2 ^ 32) (xreg receiving 73 7)).length ≤ 32 ∧
      (lowestReady receiving 73 (xreg receiving 73 9)).isSome = true) ∧
    (recvWord waiting 73 ((xreg waiting 73 5).toNat % 64) = none ∧ lowestReady waiting 73 (xreg waiting 73 9) = none ∧
      (hartOf waiting 73).held ≠ [] ∧ stagedWords (hartOf waiting 73) + 1 ≤ 256) ∧
    ((hartOf receiving 73).held = [] ∧ (openWith (hartOf receiving 73) (0x50000000 % 2 ^ 32) 1).length ≠ 3 ∧
      (xreg receiving 73 6).toNat % 2 ^ 32 / 2 ^ 28 = 5) ∧
    (hartRuns machine 79 = true ∧ privOf machine 79 = 3 ∧ hartThread 79 = 7 ∧
      (hartOf machine (8 * hartCore 79 + (xreg machine 79 5).toNat % 8)).st = 3 ∧
      (hartOf machine (8 * hartCore 79 + (csr machine 79 0x7C0).toNat % 8)).st = 3 ∧ nbits (csr machine 79 0x7C0).toNat 31 16 = 2) := by
  decide +kernel

def trapping : State := coreOf9 [(1, { thread0 with ctx := [(0x1302, 4), (0x1305, 0x80), (0x1105, 0x91)] }), (7, { thread0 with ctx := [] })] []
def delegating : State := coreOf9 [(1, { st := 1, ctx := [(0, 0x1000), (1, 1), (0x1302, 4), (0x1105, 0x91)] })] []
def queuedItem : State := { receiving with cores := { receiving.cores with waiting := [(9, 63, [1, 2])] } }
def blockedOn : State := coreOf9 [(1, { thread0 with st := 2, blocked := some (.recv 4 3) })] [(3, [{ words := [7, 8] }])]
def timerDue : State := atTime (coreOf9 [(6, { thread0 with ctx := [(0x15C0, 5)] })] []) 700000
def lockedKeys : State := setF base Reg.MLD_KS_LOCK 0 0 1

theorem witness_ThreadEvents :
    (clocked trapping = true ∧ hartRuns trapping 73 = true ∧ delegated trapping 73 5 = false ∧ hartThread 73 ≠ 7 ∧
      hartRuns trapping 79 = true ∧ delegated trapping 79 5 = false ∧ (csr trapping 79 0x300).getLsbD 42 = false ∧
      hartRuns delegating 73 = true ∧ delegated delegating 73 2 = true) ∧
    (coreTakes receiving 9 = true ∧ coreTakes queuedItem 9 = true ∧ (epQueue queuedItem 9 63).length < 64 ∧
      queuedItem.cores.waiting.findIdx? (fun w => w.1 == 9 && w.2.1 == 63) = some 0) ∧
    (coreTakes blockedOn (hartCore 73) = true ∧ (hartOf blockedOn 73).st = 2 ∧ (release blockedOn 73).isSome = true) ∧
    (coreTakes timerDue 9 = true ∧ csr timerDue (8 * 9 + 6) 0x5C0 ≠ 0xFFFFFFFFFFFFFFFF ∧
      0 ≤ signed 64 (toBits 64 ((timerClock timerDue (8 * 9 + 6) : Int) - (csr timerDue (8 * 9 + 6) 0x5C0).toNat)) ∧
      (epQueue timerDue 9 62).length < 64 ∧ (timerDue.cores.waiting.any fun w => w.1 == 9 && w.2.1 == 62) = false) ∧
    (clocked lockedKeys = true ∧ flag lockedKeys Reg.MLD_KS_LOCK 0 = true ∧ fld lockedKeys Reg.MGMT_STATUS 9 8 = 0 ∧
      fld (setF lockedKeys Reg.MGMT_STATUS 9 8 1) Reg.MGMT_STATUS 9 8 = 1) := by decide +kernel

theorem witness_ThreadEvents_room : (epQueue trapping 9 63).length < 64 ∧
    (trapping.cores.waiting.any fun w => w.1 == 9 && w.2.1 == 63) = false ∧ traceOn trapping 9 = false := by decide +kernel

def imageP : List Byte := pars [255, 0x4000000 - 2, 2] ++ [5, 6]

theorem witness_QuireCommands :
    Admitted (withCmd base 0 0x0700 imageP) 0 0x0700 (some imageP) imageP ∧
    Admitted (withCmd base 0 0x0701 (pars [7, 0x80000100])) 0 0x0701 (some (pars [7, 0x80000100])) (pars [7, 0x80000100]) ∧
    Admitted (withCmd receiving 0 0x0702 (pars [1])) 0 0x0702 (some (pars [1])) (pars [1]) ∧
    Admitted (withCmd base 0 0x0703 (pars [7])) 0 0x0703 (some (pars [7])) (pars [7]) ∧
    (imageP.length = 24 + slot imageP 2 ∧ slot imageP 0 < 2 ^ quireCount base.variant ∧ slot imageP 1 < 0x4000000 ∧
      slot imageP 1 + slot imageP 2 ≤ 0x4000000 ∧ quireState base 7 = 0 ∧ quireEntryOk base 0x80000100 = true ∧
      domOpen base 7 = true ∧ (3 : Byte) ≠ 0) :=
  ⟨adm _ _ _ (by decide +kernel), adm _ _ _ (by decide +kernel), adm _ _ _ (by decide +kernel), adm _ _ _ (by decide +kernel),
    by decide +kernel⟩

/-! ## On-chip memory and HBM -/

def bankMoved : State := { setF base (Reg.SPM_BANK_OWNER 1) 31 29 2 with
  memc := { base.memc with handover := [(255, (0x20000001, false))], march := some (1, 2, true) } }
def patrolling : State := setF base (Reg.HBM_CFG 1) 7 0 5

theorem witness_MemoryCommands_registers :
    (clocked base = true ∧ reachesBar0 base (.fn 0) = true ∧ 5 ≤ bits 0xA0000000 31 29 ∧ bankMoving base 255 = false ∧
      bankFailed base 255 = false ∧ bits 0x80000007 31 29 < 5 ∧ bankKind base 255 ≠ 5 ∧ bits 0x80000007 31 29 ≠ bankKind base 255) ∧
    (clocked bankMoved = true ∧ tget bankMoved.memc.handover 255 = some (0x20000001, false) ∧
      bankMoved.memc.march = some (1, 2, true) ∧ 16383 < 16384) ∧
    (clocked patrolling = true ∧ 1 < hbmCount patrolling.variant ∧ selfRefresh patrolling 1 = false ∧
      fld patrolling (Reg.HBM_CFG 1) 7 0 ≠ 0) := by decide +kernel

theorem witness_MemoryCommands_admitted :
    Admitted (withCmd base 0 0x0800 (pars [254, 2, 1])) 0 0x0800 (some (pars [254, 2, 1])) (pars [254, 2, 1]) ∧
    Admitted (withCmd (setG base .throughput) 0 0x0800 (pars [0, 1, 1])) 0 0x0800 (some (pars [0, 1, 1])) (pars [0, 1, 1]) ∧
    Admitted (withCmd base 0 0x0801 []) 0 0x0801 none [] ∧
    Admitted (withCmd base 0 0x0808 (pars [1, 255])) 0 0x0808 (some (pars [1, 255])) (pars [1, 255]) ∧
    Admitted (withCmd base 0 0x0809 (pars [1, 31, 255, 65535])) 0 0x0809 (some (pars [1, 31, 255, 65535])) (pars [1, 31, 255, 65535]) ∧
    Admitted (withCmd base 0 0x080A (pars [1])) 0 0x080A (some (pars [1])) (pars [1]) ∧
    (base.memc.march = none ∧ base.grade.cur = .provision ∧
      (marchBanks (254, 2, true)).all (fun b => bankKind base b == 0) = true ∧ 1 < hbmCount base.variant) :=
  ⟨adm _ _ _ (by decide +kernel), adm _ _ _ (by decide +kernel), admitted_of _ _ _ _ _ (by decide +kernel),
    adm _ _ _ (by decide +kernel), adm _ _ _ (by decide +kernel), adm _ _ _ (by decide +kernel), by decide +kernel⟩

/-! ## Resets, boot and security -/

theorem witness_ResetCommands :
    (State.reset.power = .porLow ∧
      { State.reset with boot := { State.reset.boot with frozenExit := true } }.boot.frozenExit = true) ∧
    (clocked base = true ∧ reachesBar0 base (.fn 0) = true ∧ bits 0xD5 7 0 = 0xD5 ∧ bits 0xD4 7 0 ≠ 0xD5) ∧
    ({ base with power := .hold } : State).power = .hold := by decide +kernel

def inStage (n : Nat) (b : BootState) : State := { setFld base Reg.BOOT_STATUS 2 0 n with boot := b }
def keyed : State := setSlot (setSlot (inStage 4
  { keys := [(1, [7]), (2, [8]), (6, [9])], images := [(3, List.replicate 16 0)] }) 2 2 2) 1 2 5
def recovering : State := modFn (setRec (inStage 2 { sources := [2, 3] }) 1) 0 fun f => { f with bme := true }

theorem witness_BootEvents_sources :
    (clocked (inStage 1 { sources := [1, 2] }) = true ∧ (triedSource (inStage 1 { sources := [1, 2] })).isSome = true) ∧
    (clocked recovering = true ∧ recovering.boot.sources = [2, 3] ∧ stage recovering = 2 ∧ recovering.boot.push = none ∧
      reachesBar0 recovering (.fn 0) = true ∧ recActive recovering = true ∧ recState recovering = 1 ∧ (fnOf recovering 0).bme = true) ∧
    ((inStage 3 {}).boot.push = none ∧ stage (inStage 3 {}) = 3) := by decide +kernel

theorem witness_BootEvents_keys :
    (clocked keyed = true ∧ stage keyed = 4 ∧ flag keyed Reg.MLD_KS_LOCK 0 = false ∧ keyFor keyed 2 2 = some [8] ∧
      keyFor keyed 0 2 = none ∧ keyFor keyed 1 5 = some [7]) ∧
    ((tget keyed.boot.images 3).isSome = true ∧ keyed.cores.fwReady = true ∧ keyed.boot.configured = false) ∧
    (flag lockedKeys Reg.MLD_KS_LOCK 0 = true ∧ fld lockedKeys Reg.MGMT_STATUS 9 8 = 0 ∧ base.pkt.squelched = true) := by
  decide +kernel

def busTimeouts : State := setF base Reg.GLB_SMB_STATUS 7 4 7
def flaky : State := { base with boot := { base.boot with modules := [(7, { timeouts := 7 })] } }
def flashP (off : Nat) : List Byte := pars [1, off, 3] ++ [4, 5, 6]

theorem witness_SecurityCommands :
    (stage keyed = 4 ∧ clocked keyed = true ∧ (linkRec keyed 0).ready = true ∧ stage base ≠ 4 ∧
      flag base Reg.GLB_SMB_STATUS 8 = false ∧
      ({ base with cores := { base.cores with fwReady := false } } : State).cores.fwReady = false) ∧
    (flag base Reg.GLB_SMB_STATUS 8 = false ∧ fld base Reg.GLB_SMB_STATUS 7 4 < 7 ∧ fld busTimeouts Reg.GLB_SMB_STATUS 7 4 = 7 ∧
      flag busTimeouts Reg.GLB_SMB_STATUS 8 = false ∧ 7 < macCount flaky.variant ∧ flaky.cores.fwReady = true ∧
      (tgetD flaky.boot.modules 7 {}).unreachable = false) := by decide +kernel

theorem witness_SecurityCommands_admitted :
    Admitted (withCmd base 0 0x0B00 (flashP 0x10000)) 0 0x0B00 (some (flashP 0x10000)) (flashP 0x10000) ∧
    Admitted (withCmd base 0 0x0B00 (flashP 0xFFFF)) 0 0x0B00 (some (flashP 0xFFFF)) (flashP 0xFFFF) ∧
    Admitted (withCmd base 0 0x0B01 (pars [1])) 0 0x0B01 (some (pars [1])) (pars [1]) ∧
    Admitted (withCmd base 0 0x0B02 (pars [1, 2, 3, 4])) 0 0x0B02 (some (pars [1, 2, 3, 4])) (pars [1, 2, 3, 4]) ∧
    Admitted (withCmd keyed 0 0x0B03 (pars [0, 0, 0])) 0 0x0B03 (some (pars [0, 0, 0])) (pars [0, 0, 0]) ∧
    Admitted (withCmd base 0 0x0B04 []) 0 0x0B04 none [] ∧
    ((flashP 0x10000).length = 24 + 3 ∧ minVer keyed.boot 0 = 0 ∧ minVer keyed.boot 1 = 0) :=
  ⟨adm _ _ _ (by decide +kernel), adm _ _ _ (by decide +kernel), adm _ _ _ (by decide +kernel), adm _ _ _ (by decide +kernel),
    adm _ _ _ (by decide +kernel), admitted_of _ _ _ _ _ (by decide +kernel), by decide +kernel⟩

/-! ## Observability, debug and freeze -/

def tracing : State :=
  let s := setF base (Reg.QUIRE_STATUS 1) 2 0 2
  let s := setF (setF s (Reg.TRC_CTL 9) 31 31 1) (Reg.TRC_CTL 9) 7 0 5
  let s := setR s (Reg.SPM_BANK_OWNER 5) (3 * 2 ^ 29 + 9)
  let s := setF (setF s (Reg.TRC_CTL 65) 31 31 1) (Reg.TRC_CTL 65) 7 0 6
  let s := setF (setF s (Reg.TRC_TAG 65) 31 31 1) (Reg.TRC_TAG 9) 31 31 1
  { s with
    cores := { s.cores with cores := [(9, {})] }
    obs := { s.obs with
      trace := [(9, { fifo := [List.replicate 32 3, [1]] }), (65, { fifo := [List.replicate 16 3] })]
      errQ := [errEv] } }
def repeated : State := { setR base Reg.GLB_ERR_SEQ 1 with
  obs := { base.obs with errQ := [errEv], errRecs := [(0, { seq := 0, ev := errEv, count := 255 })] } }

theorem witness_ObservationCommands_events :
    (clocked base = true ∧ unitHasPmu base.variant 0x300 = true ∧
      flag (setF base (pmuEvsel 0x300 7) 31 31 1) (pmuEvsel 0x300 7) 31 = true) ∧
    (reachesBar0 base (.fn 0) = true ∧ bits 3 0 0 = 1 ∧ bits 1 1 1 = 0 ∧ bits 0x80000005 31 31 = 1 ∧
      traceDestOk base 73 0x80000005 = false ∧ bits 5 31 31 = 0) ∧
    (clocked tracing = true ∧ flag tracing (Reg.TRC_TAG 65) 31 = true ∧ (srcOf tracing 9).fifo = [List.replicate 32 3, [1]] ∧
      traceOn tracing 9 = true ∧ traceWaits tracing 9 = false ∧ traceDestOk tracing 9 (rd tracing (Reg.TRC_CTL 9)) = true ∧
      traceUnits tracing 9 ≠ 0 ∧ flag tracing (Reg.TRC_CTL 9) 30 = false) ∧
    ((srcOf tracing 65).fifo = [List.replicate 16 3] ∧ traceOn tracing 65 = true ∧ traceWaits tracing 65 = false ∧
      traceDestOk tracing 65 (rd tracing (Reg.TRC_CTL 65)) = false ∧ coreTakes tracing 9 = true ∧ (srcOf tracing 9).idle = false ∧
      ((List.range 8).any fun k => (threadOf tracing 9 k).st == 1) = false) ∧
    (tracing.obs.errQ = [errEv] ∧ newestRec tracing errEv = none ∧ (newestRec repeated errEv).isSome = true ∧
      ((newestRec repeated errEv).map fun k => coalesces errEv k.2) = some true) := by decide +kernel

def pmuP : List Byte := pars [0x300, 7, 0x80000001, 2 ^ 32 - 1]

theorem witness_ObservationCommands_admitted :
    Admitted (withCmd base 0 0x0A00 pmuP) 0 0x0A00 (some pmuP) pmuP ∧
    Admitted (withCmd tracing 0 0x0A01 (pars [73, 255, 2 ^ 29 - 1])) 0 0x0A01 (some (pars [73, 255, 2 ^ 29 - 1])) (pars [73, 255, 2 ^ 29 - 1]) ∧
    Admitted (withCmd tracing 0 0x0A02 (pars [2 ^ 32 - 1, 256])) 0 0x0A02 (some (pars [2 ^ 32 - 1, 256])) (pars [2 ^ 32 - 1, 256]) :=
  ⟨adm _ _ _ (by decide +kernel), adm _ _ _ (by decide +kernel), adm _ _ _ (by decide +kernel)⟩

def armable : State := setF base Reg.GLB_PIN_LEVEL 6 6 1
def unarmable : State := setF base Reg.GLB_PIN_LEVEL 6 6 0
def armedState : State := { setR base Reg.FRZ_CFG 0x101 with obs := { base.obs with armed := true, unlocked := true, trig := 8 } }
def unlockP : List Byte := pars (List.replicate 24 3)

theorem witness_DebugCommands_admitted :
    (Admitted (withCmd base 0 0x0A05 unlockP) 0 0x0A05 (some unlockP) unlockP ∧ unlockP.length = 192 ∧
      tget base.boot.keys 3 ≠ some (sha384 (unlockP.take 96))) ∧
    Admitted (withCmd armable 0 0x0A03 (pars [0x701])) 0 0x0A03 (some (pars [0x701])) (pars [0x701]) ∧
    Admitted (withCmd unarmable 0 0x0A03 (pars [0x301])) 0 0x0A03 (some (pars [0x301])) (pars [0x301]) ∧
    Admitted (withCmd base 0 0x0A04 []) 0 0x0A04 none [] ∧
    (flag armable Reg.GLB_PIN_LEVEL 6 = true ∧ flag unarmable Reg.GLB_PIN_LEVEL 6 = false ∧ 0x701 / 32 % 8 = 0) :=
  ⟨⟨adm _ _ _ (by decide +kernel), by decide +kernel, by
      rw [show tget base.boot.keys 3 = none from rfl]; exact nofun⟩, adm _ _ _ (by decide +kernel),
    adm _ _ _ (by decide +kernel), admitted_of _ _ _ _ _ (by decide +kernel), by decide +kernel⟩

theorem witness_DebugCommands_events :
    (clocked armedState = true ∧ reachesBar0 armedState (.fn 0) = true ∧ trigsIn armedState 1 ≠ 0 ∧
      armedState.obs.unlocked = true ∧ rowOf armedState.variant 0x01000FF0 = none ∧ 0x01000FF0 % 4 = 0) ∧
    (isFrozen frozenState = true ∧ frozenState.obs.regions.length < 16 ∧ frozenState.obs.unlocked = false ∧
      0 < 2 ^ 36 - 1 ∧ base.power ≠ .porLow ∧ isFrozen base = false) := by decide +kernel

/-- The largest region that HBM holds. -/
theorem witness_DebugCommands_region : 0 < 8789062 ∧ 8789062 * 4096 ≤ hbmBytes ∧ hbmBytes < 8789063 * 4096 := by decide

/-! ## The standards that the cipher and transform engines follow, on their published examples -/

/-- FIPS 197, C.3: AES-256. -/
theorem test_aes256 : aesEnc (aesKeys ((List.range 32).map fun i => BitVec.ofNat 8 i)) 0x00112233445566778899AABBCCDDEEFF =
    0x8EA2B7CA516745BFEAFC49904B496089 := by decide +kernel

/-- Test case 14 of the GCM specification: AES-256, one block of zeros. -/
theorem test_gcm : aeadSeal 1 (List.replicate 32 0) (List.replicate 12 0) [] (List.replicate 16 0) =
    (toBe 16 0xCEA7403D4D606B6E074EC5D3BAF39D18, toBe 16 0xD0D1C8A799996BF0265B98B5D48AB919) := by decide +kernel

/-! ## Completion -/

theorem witness_ReceptionAndWoveComplete_ports :
    (clocked dataPort = true ∧ portEn dataPort 2 = true ∧ linkUp dataPort 2 = true ∧ dataPort.pkt.squelched = false ∧
      (rx0 64).uncorrectable = 0 ∧ (rx0 64).assembly = .whole ∧ (rx0 64).fcsBad = false ∧ 64 ≤ (rx0 64).bytes.length ∧
      (rx0 64).bytes.length ≤ maxFrame dataPort 2) ∧
    (fld (pfc 1) (Reg.MAC_PFC_CFG 0) 25 24 = 1 ∧ fld (pfc 2) (Reg.MAC_PFC_CFG 0) 25 24 = 2 ∧ pfcIgnoreEff (pfc 2) 0 = 0 ∧
      tget (portOf (withPort ports { paused := [(7, 5)] }) 0).paused 7 ≠ none) := by decide +kernel

/-- A connection of protocol wove, its lanes up, and a packet that came before, sealed under its key. -/
def secured : Conn := { conn0 with proto := 0, suspect := [1], unacked := [{ tx0 with rnrWait := true }] }
def securing : State := withLanes (wove secured)
def sealedPkt : WovePkt :=
  let x := aeadSeal 1 (saOf securing 1).key (woveNonce (saOf securing 1) 0 7) (headerOf 7 3077) [1, 2]
  { hdr := headerOf 7 3077, payload := x.1, tag := x.2, ce := false }

theorem sealedPkt_hdr : sealedPkt.hdr = headerOf 7 3077 := rfl

theorem sealedPkt_bytes : (packetBytes sealedPkt).length = 50 := by
  have h := aeadSeal_length 1 (saOf securing 1).key (woveNonce (saOf securing 1) 0 7) (headerOf 7 3077) [1, 2] (by decide)
  have hp : sealedPkt.payload.length = 2 := h.1
  have ht : sealedPkt.tag.length = 16 := h.2
  rw [packetBytes, List.length_append, List.length_append, hp, ht, sealedPkt_hdr]
  rfl

/-- It opens to two bytes, and the connection stays as it is. -/
theorem sealedPkt_opens : ∃ b : List Byte, b.length = 2 ∧ openPacket securing secured sealedPkt = some (b, secured) := by
  obtain ⟨b, hb, hl⟩ := aeadOpen_seal 1 (saOf securing 1).key (woveNonce (saOf securing 1) 0 7) (headerOf 7 3077) [1, 2]
    (by decide)
  have h0 : (whFlag sealedPkt.hdr 4 == secured.phaseRx) = true := by rw [sealedPkt_hdr]; decide +kernel
  have h1 : ¬secured.proto = 1 := by decide
  have h2 : tryOpen securing secured secured.keyRx sealedPkt = some b := by
    rw [tryOpen, if_neg h1, ← hb]
    rfl
  refine ⟨b, hl, ?_⟩
  rw [openPacket, if_pos h0, h2]
  rfl

theorem witness_ReceptionAndWoveComplete_packet :
    (clocked securing = true ∧ tget securing.wove.conns 0 = some secured ∧ flag securing Reg.WOV_CFG 0 = true ∧
      dataOn securing = true ∧ (headerOf 7 3077).length = 32 ∧ whConn (headerOf 7 3077) = 0 ∧ secured.state = 1 ∧
      secured.cached = true ∧ fnGone securing secured.fid = none ∧ secured.proto = 0 ∧
      saPresent securing (rxKey secured (headerOf 7 3077)) = true ∧ isCtrl (headerOf 7 3077) = false) ∧
    (rideLane securing false 0 (packetBytes sealedPkt).length).isSome = true ∧
    ∃ x, openPacket securing secured sealedPkt = some x ∧ badHeader x.2 sealedPkt.hdr x.1.length = false ∧
      psnDiff x.2 (whPsn sealedPkt.hdr) x.2.cum < 0 := by
  refine ⟨by decide +kernel, by rw [sealedPkt_bytes]; decide +kernel, ?_⟩
  obtain ⟨b, hl, hb⟩ := sealedPkt_opens
  have h1 : badHeader secured (headerOf 7 3077) 2 = false := by decide +kernel
  have h2 : psnDiff secured (whPsn (headerOf 7 3077)) secured.cum < 0 := by decide +kernel
  exact ⟨(b, secured), hb, by rw [sealedPkt_hdr, hl]; exact h1, h2⟩

theorem witness_ReceptionAndWoveComplete_events :
    (tget (adopt sender 0).wove.conns 0 = some sending ∧ sending.unacked = [] ∧ sending.resp = [] ∧
      sending.wrs.find? (fun w => !w.whole) = some wr0) ∧
    (1 ∈ secured.suspect ∧ secured.unacked.find? (fun x => x.rnrWait) = some { tx0 with rnrWait := true }) ∧
    (owing.state = 1 ∧ (expiring 0).state = 1 ∧ draining.state = 2 ∧ missed.cached = false) := by decide +kernel

def idleQueue : Queue := { que 2 0 with state := 1 }
def txQueue : State := { setG queues .throughput with wq := { queues.wq with queues := [(3, { que 2 0 with state := 1, tail := 9 })] } }

theorem witness_QueueAndThreadComplete_queues :
    (clocked queues = true ∧ idleQueue.state = 1 ∧ idleQueue.head = idleQueue.tail ∧ (63 : Word).toNat < qSize idleQueue ∧
      cqe.pi < cqSize cqe) ∧
    (fetches txQueue 3 { que 2 0 with state := 1, tail := 9 } = true ∧
      checkDesc (rawDesc 1 100 0) 0 (maxFrame txQueue 0) = none ∧ leAt (rawDesc 1 100 0) 0 1 ≠ 0x20) ∧
    ((tget queues.wq.queues 5).map (fun q => (q.state, q.destroy, decide (0 < qSize q))) = some (4, false, true)) ∧
    hdrOpcode (hdrOf 0 0 0 0) ≠ 0x0509 := by decide +kernel

theorem witness_QueueAndThreadComplete_threads :
    (clocked receiving = true ∧ hartRuns receiving 73 = true ∧ hartThread 73 ≠ 7 ∧ privOf receiving 73 = 3) ∧
    (queuedItem.cores.waiting.head? = some (9, 63, [1, 2]) ∧ coreTakes queuedItem 9 = true ∧
      (epQueue queuedItem 9 63).length < 64) ∧
    (flag lockedKeys Reg.MLD_KS_LOCK 0 = true ∧ fld lockedKeys Reg.MGMT_STATUS 9 8 = 0 ∧
      fld (setF lockedKeys Reg.MGMT_STATUS 9 8 1) Reg.MGMT_STATUS 9 8 = 1) := by decide +kernel

/-! ## Single steps, on values of the spec's own tables -/

def stepped (c : Instr) (s : State) (p : State → Bool) : Bool := nextHas (step { s with pending := [c] }) p

/-- R446, R470: POR_RELEASE starts the device with DEVICE_TIME at 0. -/
theorem test_por_release : stepped .porRelease State.reset (fun t => t.power == .run && t.deviceTime == 0) = true := by
  decide +kernel

/-- GLB_ID and GLB_CAP of the FZ3200-AX. -/
theorem test_identification : stepped (.readClear (.fn 0) ⟨.bar0, Reg.GLB_ID⟩) base
    (fun t => t.out.head? == some (.busData (.fn 0) 0 [0xB0, 0x01, 0x00, 0x32])) = true := by decide +kernel

theorem test_bx_limits : rd { base with variant := .bx } Reg.DRY_CAP = 190 ∧ rd base Reg.DRY_CAP = 300 := by decide +kernel

/-- R31: GLB_GRADE_REQUEST starts THROUGHPUT from PROVISION. -/
theorem test_grade_request : stepped (.gradeRequestWrite (.fn 0) 1) base
    (fun t => t.grade.target == some .throughput && t.grade.cur == .provision) = true := by decide +kernel

/-- R423: the lowest cap is taken, one watt less is not. -/
theorem test_cap_set : stepped (.dryCapSet 0 (some (pars [120]))) (capSet 120) (fun t => fld t Reg.DRY_CAP 8 0 == 120) = true := by
  decide +kernel

theorem test_cap_set_low : stepped (.dryCapSet 0 (some (pars [119]))) (capSet 119) (fun t => fld t Reg.DRY_CAP 8 0 == 300) = true := by
  decide +kernel

/-- An empty queue ticks; a unit the BX has not stops the run. -/
theorem test_tick : nextHas (step base) (fun t => t.deviceTime == 1) = true := by decide +kernel

theorem test_no_such_unit : exec (.lldpduTransmit ⟨4, []⟩) { base with variant := .bx } = .fault .noSuchUnit := by rfl

/-- The rows of every section are found in it. -/
theorem test_section_rows :
    (regRows.all fun r => (sectionRows (r.base / 0x1000000)).any fun x => x.base == r.base) = true := by decide +kernel

end Sys2Proof.Tests
end

/-! ## Grades without clocks (R37)

In FROZEN the root-derived clocks stand still, so every command written with a clocked frame does nothing, and the frame of
the parts without clocks keeps the grade. The resets other than POR_ASSERT need clocks, POR_N low, or a device reset held. -/

namespace Sys2Proof.Machine

theorem clocked_eq_false_of_frozen {s : State} (h : s.grade.cur = .frozen) : clocked s = false := by
  simp [clocked, h]

/-- With the device out of reset but its clocks stopped, POR_ASSERT alone can change the grade. -/
theorem porAssert_or_grade_eq_of_unclocked {c : Instr} {s t : State} (hrun : s.power = .run) (hclk : clocked s = false)
    (h : exec c s = .next t) : c = .porAssert ∨ t.grade = s.grade := by
  have stopped : ¬ clocked s = true := by simp [hclk]
  have notLow : ¬ s.power = .porLow := by simp [hrun]
  have notHeld : ¬ s.power = .hold := by simp [hrun]
  rcases exec_cases c s t h with rfl | ⟨clk, -⟩ | ⟨clk, -⟩ | ⟨clk, -⟩ | ⟨-, u, rfl⟩ | ⟨por, -⟩ | ⟨-, low, -⟩ | ⟨-, clk, -⟩ |
    ⟨-, held, -⟩ | ⟨-, clk, -⟩ | ⟨-, low, -⟩ | ⟨-, ⟨clk, -⟩ | ⟨u, rfl⟩⟩
  · exact .inr rfl
  · exact absurd clk stopped
  · exact absurd clk stopped
  · exact absurd clk stopped
  · exact .inr rfl
  · exact .inl por
  · exact absurd low notLow
  · exact absurd clk stopped
  · exact absurd held notHeld
  · exact absurd clk stopped
  · exact absurd low notLow
  · exact absurd clk stopped
  · exact .inr rfl

/-- Settles O8: no clock runs in FROZEN, and without clocks only POR_ASSERT touches the grade. -/
theorem frozenLeftOnlyByPor : Obligations.FrozenLeftOnlyByPor := by
  intro c s t hrun hfrozen hexec hleft
  refine (porAssert_or_grade_eq_of_unclocked hrun (clocked_eq_false_of_frozen hfrozen) hexec).resolve_right fun kept => ?_
  exact hleft (kept ▸ hfrozen)

end Sys2Proof.Machine

/-! ## A second transition (R30) -/

namespace Sys2Proof.Machine

/-- While a transition is in progress, a request by either path is refused as busy. -/
theorem requestGrade_of_target {s : State} (h : s.grade.target ≠ none) (g : Grade) (byPf : Option Nat) :
    requestGrade s g byPf = (some stBusy, false, gradeRefused s stBusy) := by
  simp [requestGrade, Option.isSome_iff_ne_none.mpr h]

/-- A refusal touches nothing but the registers. -/
theorem gradeRefused_eq_with_regs (s : State) (st : Nat) : ∃ r, gradeRefused s st = { s with regs := r } := ⟨_, rfl⟩

theorem keep_gradeRefused_frame (s : State) (st : Nat) : { keep s (gradeRefused s st) with regs := s.regs } = s := by
  obtain ⟨r, hr⟩ := gradeRefused_eq_with_regs s st
  rw [hr]
  rfl

theorem keep_modChan_gradeRefused_frame (s : State) (st pf : Nat) (f : Channel → Channel) :
    { keep s (modChan (gradeRefused s st) pf f) with regs := s.regs, chans := s.chans } = s := by
  obtain ⟨r, hr⟩ := gradeRefused_eq_with_regs s st
  rw [hr]
  rfl

theorem fld_gradeRefused_lastStatus (s : State) (st : Nat) :
    fld (gradeRefused s st) Reg.GLB_GRADE_STATUS 31 16 = st % 2 ^ 16 :=
  fld_setFld_self _ _ _ _ _ (by decide) (by decide)

/-- The status lies above REFUSED in its register, and REFUSED_CNT in another. -/
theorem hardwareSet_gradeRefused (s : State) (st : Nat) :
    HardwareSet s (gradeRefused s st) Reg.GLB_GRADE_STATUS 2 15 8 := by
  constructor
  · have below : fld (gradeRefused s st) Reg.GLB_GRADE_STATUS 2 2 =
        fld (hwSet s Reg.GLB_GRADE_STATUS 2 15 8) Reg.GLB_GRADE_STATUS 2 2 := by
      simp only [gradeRefused, lastStatus, fld, rd_setFld_self]
      exact bits_putBits_below _ _ _ _ _ _ (by decide) (by decide) (by decide) (by decide)
    rw [flag, below]
    exact flag_hwSet s Reg.GLB_GRADE_STATUS 2 15 8 (by decide)
  · rw [gradeRefused, lastStatus, fld_setFld_ne _ (by decide)]
    exact fld_hwSet_occ s Reg.GLB_GRADE_STATUS 2 15 8 (by decide) (by decide)

theorem regsElsewhere_gradeRefused (s : State) (st : Nat) :
    RegsElsewhere s (gradeRefused s st) [Reg.GLB_GRADE_STATUS, Reg.GLB_GRADE_STATUS_OCC] := by
  intro a ha
  simp only [List.mem_cons, List.not_mem_nil, or_false, not_or] at ha
  obtain ⟨notStatus, notOcc⟩ := ha
  rw [gradeRefused, lastStatus, rd_setFld_ne _ (Ne.symm notStatus)]
  exact rd_hwSet_ne s Reg.GLB_GRADE_STATUS 2 15 8 a notStatus notOcc

@[simp] theorem keep_regs (s t : State) : (keep s t).regs = t.regs := rfl

/-- A step that leaves the registers of the refusal shows REFUSED, REFUSED_CNT and LAST_STATUS of it, and no other change of
a register. -/
theorem refusal_recorded {s t : State} {st : Nat} (hst : st < 2 ^ 16) (hregs : t.regs = (gradeRefused s st).regs) :
    HardwareSet s (keep s t) Reg.GLB_GRADE_STATUS 2 15 8 ∧ fld (keep s t) Reg.GLB_GRADE_STATUS 31 16 = st ∧
      RegsElsewhere s (keep s t) [Reg.GLB_GRADE_STATUS, Reg.GLB_GRADE_STATUS_OCC] := by
  have same (a : Nat) : rd (keep s t) a = rd (gradeRefused s st) a :=
    rd_congr (t := keep s t) ((keep_regs s t).trans hregs) rfl a
  have hw := hardwareSet_gradeRefused s st
  have hlast := fld_gradeRefused_lastStatus s st
  rw [Nat.mod_eq_of_lt hst] at hlast
  refine ⟨?_, ?_, fun a ha => (same a).trans (regsElsewhere_gradeRefused s st a ha)⟩
  · simpa only [HardwareSet, flag, fld, same] using hw
  · simpa only [fld, same] using hlast

/-- The refusal as busy, by the register and with a channel's reply. -/
theorem busy_recorded (s : State) :
    HardwareSet s (keep s (gradeRefused s stBusy)) Reg.GLB_GRADE_STATUS 2 15 8 ∧
      fld (keep s (gradeRefused s stBusy)) Reg.GLB_GRADE_STATUS 31 16 = stBusy ∧
      RegsElsewhere s (keep s (gradeRefused s stBusy)) [Reg.GLB_GRADE_STATUS, Reg.GLB_GRADE_STATUS_OCC] ∧
      { keep s (gradeRefused s stBusy) with regs := s.regs } = s := by
  obtain ⟨hw, hlast, helse⟩ := refusal_recorded (s := s) (t := gradeRefused s stBusy) (st := stBusy) (by decide) rfl
  exact ⟨hw, hlast, helse, keep_gradeRefused_frame s stBusy⟩

theorem busy_recorded_with_reply (s : State) (pf : Nat) (f : Channel → Channel) :
    HardwareSet s (keep s (modChan (gradeRefused s stBusy) pf f)) Reg.GLB_GRADE_STATUS 2 15 8 ∧
      fld (keep s (modChan (gradeRefused s stBusy) pf f)) Reg.GLB_GRADE_STATUS 31 16 = stBusy ∧
      RegsElsewhere s (keep s (modChan (gradeRefused s stBusy) pf f)) [Reg.GLB_GRADE_STATUS, Reg.GLB_GRADE_STATUS_OCC] ∧
      { keep s (modChan (gradeRefused s stBusy) pf f) with regs := s.regs, chans := s.chans } = s := by
  obtain ⟨hw, hlast, helse⟩ :=
    refusal_recorded (s := s) (st := stBusy) (by decide) (modChan_regs (gradeRefused s stBusy) pf f)
  exact ⟨hw, hlast, helse, keep_modChan_gradeRefused_frame s stBusy pf f⟩

/-- GRADE_SET's handler during a transition. -/
theorem gradeSetBody_run_of_target {s : State} (h : s.grade.target ≠ none) {c : Ctx} (hslot : slot c.params 0 < 8) :
    gradeSetBody.run c s = .finish (refuse stBusy) (gradeRefused s stBusy) := by
  simp [gradeSetBody, requestGrade_of_target h, Nat.not_le.mpr hslot, stBusy, stWrongGrade]

/-- An admitted Joryen command of a clocked frame answers with what its channel does. -/
theorem joryen_admitted {s : State} {pf code : Nat} {buf : ParamBuf} {p : List Byte} (h : Admitted s pf code buf p)
    (b : OpBody) : joryen code b pf buf s = .next (keep s (chanRun code b pf buf s)) := by
  obtain ⟨hpf, hclk, -⟩ := h
  rw [joryen, within_true (decide_eq_true hpf), live_clocked s _ hclk]

/-- GRADE_SET during a transition: the refusal is recorded, and the channel holds its reply. -/
theorem gradeSet_of_target {s : State} (htarget : s.grade.target ≠ none) {pf : Nat} {buf : ParamBuf} {p : List Byte}
    (hadm : Admitted s pf 0x0002 buf p) (hlen : p.length = 8) (hslot : slot p 0 < 8) :
    ∃ (cmd : Running) (isSealed late : Bool), exec (.gradeSet pf buf) s =
      .next (keep s (modChan (gradeRefused s stBusy) pf fun ch =>
        { ch with cmd := some (afterRun cmd isSealed late (.finish (refuse stBusy) (gradeRefused s stBusy))).1 })) := by
  obtain ⟨cmd, row, -, -, run⟩ := chanRun_admitted hadm
  obtain ⟨isSealed, late, hrun⟩ := run gradeSetBody (by simp [gradeSetBody, slots, hlen]) rfl
  refine ⟨cmd, isSealed, late, (joryen_admitted hadm gradeSetBody).trans ?_⟩
  have hparams : slot (ctxOf pf false cmd.hdr (some p)).params 0 < 8 := hslot
  rw [hrun, gradeSetBody_run_of_target htarget hparams]
  rfl

/-- A submission on a channel that holds a command is refused there (R361). -/
theorem submit_of_cmd {s : State} {pf : Nat} {cmd : Running} (h : (chanOf s pf).cmd = some cmd) :
    submit s pf = modChan s pf fun ch => { ch with
      reject := BitVec.ofNat 32 (stBusy * 65536 + hdrTag (chanHdr s pf)), rejected := true
      rejectedCnt := ch.rejectedCnt + 1 } := by
  simp [submit, h]

theorem onPage_reaches {s : State} {fid : Nat} (h : pageReach s fid = true) (f : State → State) : onPage s fid f = f s := by
  simp [onPage, h]

/-- CMD_SUBMIT with GO on a page that answers. -/
theorem cmdSubmit_go {s : State} {pf : Nat} (hpf : pf < 8) (hclk : clocked s = true) (hpage : pageReach s pf = true) :
    exec (.cmdSubmit pf 1) s = .next (keep s (submit s pf)) := by
  have go : writeSubmit s pf 1 = submit s pf := by simp [writeSubmit, bits]
  rw [← go, ← onPage_reaches hpage fun s => writeSubmit s pf 1]
  exact (within_true (decide_eq_true hpf) _).trans (live_clocked s _ hclk)

/-- Settles O19: both paths end in the one refusal of `requestGrade`, and a channel that holds a command takes no other. -/
theorem secondTransitionRefused : Obligations.SecondTransitionRefused := by
  intro s htarget
  refine ⟨fun pf buf p hadm hlen hslot => ?_, fun m v hclk hbar => ?_, fun pf hpf hclk hpage cmd hcmd _ => ?_⟩
  · obtain ⟨cmd, isSealed, late, hexec⟩ := gradeSet_of_target htarget hadm hlen hslot
    exact ⟨_, hexec, ⟨_, settled_afterRun s _ pf cmd isSealed late _, rfl⟩, busy_recorded_with_reply s pf _⟩
  · have hexec : exec (.gradeRequestWrite m v) s = .next (keep s (gradeRefused s stBusy)) := by
      have run := onWrite_reaches hclk hbar fun s => (requestGrade s (gradeOf (bits v 2 0)) none).2.2
      rwa [requestGrade_of_target htarget] at run
    exact ⟨_, hexec, busy_recorded s⟩
  · refine ⟨_, cmdSubmit_go hpf hclk hpage, ?_⟩
    rw [submit_of_cmd hcmd]
    exact ⟨by rw [chanOf_keep, chanOf_modChan_self], by rw [chanOf_keep, chanOf_modChan_self]; exact hcmd, rfl⟩

end Sys2Proof.Machine

/-! ## Register reads (R6, R21, R275, R276, R506) -/

namespace Sys2Proof.Machine

/-! ### The read latch of a master -/

@[simp] theorem readLatchOf_setReadLatch_self (s : State) (m : Master) (v : Word) :
    readLatchOf (setReadLatch s m v) m = v := by
  simp [readLatchOf, setReadLatch]

theorem readLatchOf_setReadLatch_ne (s : State) {m n : Master} (h : n ≠ m) (v : Word) :
    readLatchOf (setReadLatch s m v) n = readLatchOf s n := by
  have other : (fun l : Master × Word => decide ((l.1 != m) = true ∧ (l.1 == n) = true)) = fun l => l.1 == n := by
    funext l
    by_cases e : l.1 = n <;> simp [e, h]
  have notMine : (m == n) = false := by simp [Ne.symm h]
  rw [readLatchOf, setReadLatch, List.find?_cons_of_neg (by simp [notMine]), List.find?_filter, other, readLatchOf]

/-! ### What a read of BAR 0 gives and leaves -/

theorem read32_of_lo {s : State} {a : Nat} {r : RegRow} (hrow : rowOf s.variant a = some (r, 0)) (hwide : r.kind ≠ .plain)
    (m : Master) : read32 s m a = (masterView s m a, setReadLatch s m (masterView s m (a + 4))) := by
  simp [read32, wideWord, hrow, hwide]

theorem read32_of_hi {s : State} {a : Nat} {r : RegRow} (hrow : rowOf s.variant a = some (r, 1)) (hwide : r.kind ≠ .plain)
    (m : Master) : read32 s m a = (readLatchOf s m, s) := by
  simp [read32, wideWord, hrow, hwide]

theorem read32_of_plain {s : State} {a : Nat} {r : RegRow} (hrow : rowOf s.variant a = some (r, 0))
    (hplain : r.kind = .plain) (m : Master) : read32 s m a = (masterView s m a, clearRc s a) := by
  simp [read32, wideWord, hrow, hplain]

/-- A row without read-to-clear bits clears the empty mask. -/
theorem clearRc_of_row {s : State} {a : Nat} {r : RegRow} (hrow : rowOf s.variant a = some (r, 0)) :
    clearRc s a = s ∧ r.rc = 0 ∨ clearRc s a = wr s a (rd s a &&& ~~~(BitVec.ofNat 32 r.rc)) := by
  by_cases noBits : r.rc = 0
  · exact .inl ⟨by simp [clearRc, hrow, noBits], noBits⟩
  · exact .inr (by simp [clearRc, hrow, noBits, word])

theorem clearRc_eq_with_regs {s : State} {a : Nat} {r : RegRow} (hrow : rowOf s.variant a = some (r, 0)) :
    ∃ l, clearRc s a = { s with regs := l } := by
  rcases clearRc_of_row hrow with ⟨same, -⟩ | cleared
  · exact ⟨s.regs, same⟩
  · exact ⟨_, cleared⟩

theorem rd_clearRc_self {s : State} {a : Nat} {r : RegRow} (hrow : rowOf s.variant a = some (r, 0)) :
    rd (clearRc s a) a = rd s a &&& ~~~(BitVec.ofNat 32 r.rc) := by
  rcases clearRc_of_row hrow with ⟨same, noBits⟩ | cleared
  · rw [same, noBits, BitVec.not_zero, BitVec.and_allOnes]
  · rw [cleared, rd_wr_self]

theorem regsElsewhere_clearRc {s : State} {a : Nat} {r : RegRow} (hrow : rowOf s.variant a = some (r, 0)) :
    RegsElsewhere s (clearRc s a) [a] := by
  intro b hb
  have hne : a ≠ b := fun e => hb (by simp [e])
  rcases clearRc_of_row hrow with ⟨same, -⟩ | cleared
  · rw [same]
  · rw [cleared, rd_wr_ne s hne]

/-! ### Where a read goes -/

theorem onRead_reaches {s : State} {m : Master} {a : Nat} (h : ReadReaches s m a) (f : State → State) :
    onRead s m a f = f s := by
  cases m with
  | core hart =>
    obtain ⟨runs, compute⟩ := h
    simp [onRead, runs, compute]
  | fn _ => exact onBar0_reaches h f
  | unit _ _ => exact onBar0_reaches h f
  | jtag => exact onBar0_reaches h f

/-- An aligned read answers what it gets, in the state the getting leaves. -/
theorem answerRead_of_aligned {a n : Nat} (h : a % n = 0) (s : State) (m : Master) (sp : Space)
    (get : State → Nat × State) :
    answerRead s m sp a n get = emit (get s).2 (.busData m a (toLe n (get s).1)) := by
  simp [answerRead, h]

theorem readAt_bar0 {s : State} {m : Master} {a : Nat} (hreach : ReadReaches s m a) (halign : a % 4 = 0) :
    readAt s m .bar0 a = emit (read32 s m a).2 (.busData m a (toLe 4 (read32 s m a).1.toNat)) := by
  rw [readAt, busRead, onRead_reaches hreach, answerRead_of_aligned halign]

theorem ownAccess_reaches {s : State} {fid : Nat} (h : pageReach s fid = true) (f : State → State) :
    ownAccess s (.fn fid) fid f = f s := by
  simp [ownAccess, onPage_reaches h]

theorem readAt_page {s : State} {fid a : Nat} (hreach : pageReach s fid = true) (halign : a % 4 = 0) :
    readAt s (.fn fid) (.page fid) a =
      emit (pageRead32 s (.fn fid) fid a).2 (.busData (.fn fid) a (toLe 4 (pageRead32 s (.fn fid) fid a).1.toNat)) := by
  rw [readAt, ownAccess_reaches hreach, answerRead_of_aligned halign]

theorem readAt_msix {s : State} {fid a : Nat} (hreach : pageReach s fid = true) (halign : a % 4 = 0) :
    readAt s (.fn fid) (.msix fid) a = emit s (.busData (.fn fid) a (toLe 4 (msixView s fid a).toNat)) := by
  rw [readAt, ownAccess_reaches hreach, answerRead_of_aligned halign]

/-! ### The words of a function page -/

theorem pageRead32_of_lo {a : Nat} (h : pageWide a = some 0) (s : State) (m : Master) (fid : Nat) :
    pageRead32 s m fid a = (pageView s fid a, setReadLatch s m (pageView s fid (a + 4))) := by
  simp [pageRead32, h]

theorem pageRead32_of_hi {a : Nat} (h : pageWide a = some 1) (s : State) (m : Master) (fid : Nat) :
    pageRead32 s m fid a = (readLatchOf s m, s) := by
  simp [pageRead32, h]

theorem pageRead32_of_plain {a : Nat} (h : pageWide a = none) (s : State) (m : Master) (fid : Nat) :
    pageRead32 s m fid a = (pageView s fid a, s) := by
  simp [pageRead32, h]

/-! ### The read commands, and the three things a read can leave behind -/

theorem exec_wideLoRead {s : State} (hclk : clocked s = true) (m : Master) (sp : Space) (a : Nat) :
    exec (.wideLoRead m ⟨sp, a⟩) s = .next (keep s (readAt s m sp a)) :=
  live_clocked s (fun s => readAt s m sp a) hclk

theorem exec_wideHiRead {s : State} (hclk : clocked s = true) (m : Master) (sp : Space) (a : Nat) :
    exec (.wideHiRead m ⟨sp, a⟩) s = .next (keep s (readAt s m sp a)) :=
  live_clocked s (fun s => readAt s m sp a) hclk

theorem exec_readClear {s : State} (hclk : clocked s = true) (m : Master) (sp : Space) (a : Nat) :
    exec (.readClear m ⟨sp, a⟩) s = .next (keep s (readAt s m sp a)) :=
  live_clocked s (fun s => readAt s m sp a) hclk

/-- A read that fills the master's latch changes no other latch. -/
theorem answers_of_latched {c : Instr} {s : State} {m : Master} {hi : Word} {o : Out}
    (h : exec c s = .next (keep s (emit (setReadLatch s m hi) o))) :
    Answers c s fun t => t.out = o :: s.out ∧ readLatchOf t m = hi ∧
      (∀ n, n ≠ m → readLatchOf t n = readLatchOf s n) ∧ { t with out := s.out, readLatch := s.readLatch } = s :=
  ⟨_, h, rfl, readLatchOf_setReadLatch_self s m hi, fun _ hn => readLatchOf_setReadLatch_ne s hn hi, rfl⟩

/-- A read that only answers. -/
theorem answers_of_emitted {c : Instr} {s : State} {o : Out} (h : exec c s = .next (keep s (emit s o))) :
    Answers c s fun t => t.out = o :: s.out ∧ { t with out := s.out } = s :=
  ⟨_, h, rfl, rfl⟩

/-- A read that clears the read-to-clear bits of its register. -/
theorem answers_of_cleared {c : Instr} {s : State} {a : Nat} {r : RegRow} {o : Out}
    (hrow : rowOf s.variant a = some (r, 0)) (h : exec c s = .next (keep s (emit (clearRc s a) o))) :
    Answers c s fun t => t.out = o :: s.out ∧ rd t a = rd s a &&& ~~~(BitVec.ofNat 32 r.rc) ∧ RegsElsewhere s t [a] ∧
      { t with out := s.out, regs := s.regs } = s := by
  obtain ⟨l, hl⟩ := clearRc_eq_with_regs hrow
  have hself := rd_clearRc_self hrow
  have helse := regsElsewhere_clearRc hrow
  rw [hl] at h hself helse
  exact ⟨_, h, rfl, hself, helse, rfl⟩

/-- Settles O13: each read comes down to one of the three shapes above, in BAR 0 by the row of its address, in a page by the
pairs of R267. -/
theorem registerReads : Obligations.RegisterReads := by
  intro s m a hclk halign
  refine ⟨fun hreach => ⟨fun r hrow hkind => answers_of_latched ?_, fun r hrow hkind => answers_of_emitted ?_,
    fun r hrow hkind => answers_of_cleared hrow ?_⟩, ?_, rfl⟩
  · rw [exec_wideLoRead hclk, readAt_bar0 hreach halign, read32_of_lo hrow hkind]
  · rw [exec_wideHiRead hclk, readAt_bar0 hreach halign, read32_of_hi hrow hkind]
  · rw [exec_readClear hclk, readAt_bar0 hreach halign, read32_of_plain hrow hkind]
  · rintro fid rfl hreach
    refine ⟨fun hlo => answers_of_latched ?_, fun hhi => answers_of_emitted ?_, fun hplain => answers_of_emitted ?_,
      answers_of_emitted ?_⟩
    · rw [exec_wideLoRead hclk, readAt_page hreach halign, pageRead32_of_lo hlo]
    · rw [exec_wideHiRead hclk, readAt_page hreach halign, pageRead32_of_hi hhi]
    · rw [exec_readClear hclk, readAt_page hreach halign, pageRead32_of_plain hplain]
    · rw [exec_readClear hclk, readAt_msix hreach halign]

end Sys2Proof.Machine
